-- ==== Sys2Proof/Word.lean ====
section
/-! DEFINITION. The words of the NX-208: bytes on the serial links, track times, handset identities,
and the indexes of the eight car slots and the fifteen node addresses. -/

namespace Sys2Proof

/-- One byte of a serial link (R194). -/
abbrev Byte := BitVec 8

/-- A track time: milliseconds modulo 2^32 (00_scope.md, "Track time"). -/
abbrev TrackTime := BitVec 32

/-- A handset identity; 0 and FFFFFFFFh are not valid identities (00_scope.md). -/
abbrev Hid := BitVec 32

/-- A car slot 1..8, held as its index 0..7: slot number n is the index n - 1. -/
abbrev Slot := Fin 8

/-- A node address 1..15, held as its index 0..14: address n is the index n - 1. -/
abbrev Addr := Fin 15

/-- The slot number 1..8. -/
def slotNumber (k : Slot) : Nat := k.val + 1

/-- The node address 1..15. -/
def addrNumber (a : Addr) : Nat := a.val + 1

end Sys2Proof
end

