-- ==== Sys2Proof/Syntax.lean ====
section
/-! DEFINITION. The commands of the NX-208: one constructor for each row of spec/opcode_table.json, in
the table's order. A console command carries the argument bytes of its command frame (R179, R198). -/

namespace Sys2Proof

inductive Instr where
  -- console: track (R64 to R68, R73, R80)
  | wake (args : List Byte)
  | sleep (args : List Byte)
  | halt (args : List Byte)
  | go (args : List Byte)
  | caution (args : List Byte)
  | setOptions (args : List Byte)
  | setRail (args : List Byte)
  -- console: cars (R8, R12, R13, R16 to R19)
  | setCar (args : List Byte)
  | setCurve (args : List Byte)
  | setWatch (args : List Byte)
  | drive (args : List Byte)
  | armLane (args : List Byte)
  | unbind (args : List Byte)
  | readCar (args : List Byte)
  -- console: nodes and sections (R97, R101, R109, R116, R117, R127)
  | setNode (args : List Byte)
  | readNode (args : List Byte)
  | setSection (args : List Byte)
  | openSection (args : List Byte)
  | closeSection (args : List Byte)
  | readSection (args : List Byte)
  -- console: pairing (R33, R159, R160, R168, R170, R178)
  | openPairing (args : List Byte)
  | closePairing (args : List Byte)
  | readPairing (args : List Byte)
  | setPairing (args : List Byte)
  | wipeBindings (args : List Byte)
  | readUnbound (args : List Byte)
  -- console: race, status, reset (R156, R157, R186 to R193)
  | newRace (args : List Byte)
  | readDecision (args : List Byte)
  | readStatus (args : List Byte)
  | ackEvents (args : List Byte)
  | setEventEnable (args : List Byte)
  | clearCounters (args : List Byte)
  | reset (args : List Byte)
  /-- A command frame with the unknown code `code` (R182). -/
  | unknownCommand (code : Byte) (args : List Byte)
  /-- Chip select rises after `bytes`, before the command is complete (R180). -/
  | transactionDiscard (bytes : List Byte)
  -- resets (R75, R76)
  | softReset
  | powerOnReset
  | rstPinReset
  | resetRelease
  | storeLoadCompletion
  -- Handset Link (R20, R21, R31, R35, R36, R38)
  /-- The characters of a complete handset frame, each with its stop bit, the last arriving now. -/
  | handsetFrame (bytes : List Byte)
  | handsetContinuityTimeout
  | unboundAgeOut (hid : Hid)
  | watchExpiry (slot : Slot)
  | noticeCompletion
  -- rails (R69, R70, R81, R88)
  | frameStart
  | settleCompletion
  | burstCompletion
  | railfltAssertion
  | railfltDeassertion
  -- the millisecond of track time (R110, R75)
  | lfsrStep
  -- Track Node Bus (R91, R96, R105)
  /-- The bytes of a frame of another station, from source address to CRC-8. -/
  | nodeFrame (bytes : List Byte)
  | silenceExpiry (addr : Addr)
  | throwTransmitStart
  | throwCompletion
  -- sections (R113, R114, R144)
  /-- The claim at place `place` (0 first) of the section's list reaches its lapse time. -/
  | claimLapse (addr : Addr) (place : Nat)
  | overflowExpiry (addr : Addr)
  | decideTimeExpiry (addr : Addr) (slot : Slot)
  -- pairing (R163, R167, R168)
  | pairingWindowExpiry
  | verifyExpiry
  | confirmExpiry
  | storeWriteCompletion (success : Bool)
  /-- A character on the receive side; `stop` says whether its stop bit came (R20). -/
  | handsetCharacter (char : Byte) (stop : Bool)
  deriving DecidableEq, Repr

end Sys2Proof
end

