-- ==== Sys2Proof/Decode.lean ====
section
/-! DEFINITION. The command codes of the Console Port (R198, Table 12-4), the reading of a command frame
clocked in by the console (R179), its spelling, and `decodeTableWord`. The table gives no bits for any
row, so `decodeTableWord` answers none for every word. -/

namespace Sys2Proof

/-- No row of spec/opcode_table.json gives bits: no word spells a command. -/
def decodeTableWord (_nbits _w : Nat) : Option Instr := none

/-- The command a code byte names, with its argument bytes; none for an unknown code (Table 12-4). -/
def commandOfCode (code : Byte) (args : List Byte) : Option Instr :=
  match code.toNat with
  | 0x10 => some (.wake args)
  | 0x11 => some (.sleep args)
  | 0x12 => some (.halt args)
  | 0x13 => some (.go args)
  | 0x14 => some (.caution args)
  | 0x15 => some (.setOptions args)
  | 0x16 => some (.setRail args)
  | 0x20 => some (.setCar args)
  | 0x21 => some (.setCurve args)
  | 0x22 => some (.setWatch args)
  | 0x23 => some (.drive args)
  | 0x24 => some (.armLane args)
  | 0x25 => some (.unbind args)
  | 0x26 => some (.readCar args)
  | 0x30 => some (.setNode args)
  | 0x31 => some (.readNode args)
  | 0x32 => some (.setSection args)
  | 0x33 => some (.openSection args)
  | 0x34 => some (.closeSection args)
  | 0x35 => some (.readSection args)
  | 0x40 => some (.openPairing args)
  | 0x41 => some (.closePairing args)
  | 0x42 => some (.readPairing args)
  | 0x43 => some (.setPairing args)
  | 0x44 => some (.wipeBindings args)
  | 0x45 => some (.readUnbound args)
  | 0x50 => some (.newRace args)
  | 0x51 => some (.readDecision args)
  | 0x60 => some (.readStatus args)
  | 0x61 => some (.ackEvents args)
  | 0x62 => some (.setEventEnable args)
  | 0x63 => some (.clearCounters args)
  | 0x70 => some (.reset args)
  | _ => none

/-- What a console transaction brings, by the bytes clocked in before chip select rises (R179, R180, R182):
a command once its last argument byte has come (bytes after it are the turnaround and the response, and
are not read), a discarded transaction before. -/
def decodeConsole (bytes : List Byte) : Instr :=
  match bytes with
  | code :: len :: rest =>
    if rest.length < len.toNat then .transactionDiscard bytes
    else
      match commandOfCode code (rest.take len.toNat) with
      | some i => i
      | none => .unknownCommand code (rest.take len.toNat)
  | _ => .transactionDiscard bytes

/-- The code and arguments of a command taken on the Console Port; none for the other rows. -/
def consoleParts : Instr → Option (Byte × List Byte)
  | .wake args => some (0x10, args)
  | .sleep args => some (0x11, args)
  | .halt args => some (0x12, args)
  | .go args => some (0x13, args)
  | .caution args => some (0x14, args)
  | .setOptions args => some (0x15, args)
  | .setRail args => some (0x16, args)
  | .setCar args => some (0x20, args)
  | .setCurve args => some (0x21, args)
  | .setWatch args => some (0x22, args)
  | .drive args => some (0x23, args)
  | .armLane args => some (0x24, args)
  | .unbind args => some (0x25, args)
  | .readCar args => some (0x26, args)
  | .setNode args => some (0x30, args)
  | .readNode args => some (0x31, args)
  | .setSection args => some (0x32, args)
  | .openSection args => some (0x33, args)
  | .closeSection args => some (0x34, args)
  | .readSection args => some (0x35, args)
  | .openPairing args => some (0x40, args)
  | .closePairing args => some (0x41, args)
  | .readPairing args => some (0x42, args)
  | .setPairing args => some (0x43, args)
  | .wipeBindings args => some (0x44, args)
  | .readUnbound args => some (0x45, args)
  | .newRace args => some (0x50, args)
  | .readDecision args => some (0x51, args)
  | .readStatus args => some (0x60, args)
  | .ackEvents args => some (0x61, args)
  | .setEventEnable args => some (0x62, args)
  | .clearCounters args => some (0x63, args)
  | .reset args => some (0x70, args)
  | .unknownCommand code args => some (code, args)
  | .transactionDiscard _ => none
  | .softReset => none
  | .powerOnReset => none
  | .rstPinReset => none
  | .resetRelease => none
  | .storeLoadCompletion => none
  | .handsetFrame _ => none
  | .handsetContinuityTimeout => none
  | .unboundAgeOut _ => none
  | .watchExpiry _ => none
  | .noticeCompletion => none
  | .frameStart => none
  | .settleCompletion => none
  | .burstCompletion => none
  | .railfltAssertion => none
  | .railfltDeassertion => none
  | .lfsrStep => none
  | .nodeFrame _ => none
  | .silenceExpiry _ => none
  | .throwTransmitStart => none
  | .throwCompletion => none
  | .claimLapse _ _ => none
  | .overflowExpiry _ => none
  | .decideTimeExpiry _ _ => none
  | .pairingWindowExpiry => none
  | .verifyExpiry => none
  | .confirmExpiry => none
  | .storeWriteCompletion _ => none
  | .handsetCharacter _ _ => none

/-- The command frame that spells a console command: code, length, arguments (R179, R198). -/
def consoleFrame (i : Instr) : Option (List Byte) :=
  (consoleParts i).map fun p => p.1 :: BitVec.ofNat 8 p.2.length :: p.2

end Sys2Proof
end

