-- ==== Sys2Proof/Machine/Records.lean ====
section
/-! DEFINITION. The records the blocks of the NX-208 hold, as plain data, and the names their fields take.
Constructors stand in the order in which the spec's defining tables list the values. -/

namespace Sys2Proof.Machine

/-! ### Car Table (01_the_car_table.md) -/

/-- The link state of a car slot (R5). -/
inductive LinkState where
  | none | silent | live | fade | lost
  deriving DecidableEq, Repr

inductive LaneMode where
  | hold | latch
  deriving DecidableEq, Repr

inductive RetryMode where
  | keep | drop
  deriving DecidableEq, Repr

/-- The store status of a slot (R15). -/
inductive StoreStatus where
  | saved | pending | unsaved
  deriving DecidableEq, Repr

/-- Nine points, point 0 to point 8, each 0..255 (R45). -/
abbrev Curve := Vector Nat 9

/-- The handset inputs of a car record (R6): true is pressed. -/
structure Inputs where
  thr : Nat
  lane : Bool
  brake : Bool
  wake : Bool
  batt : Nat
  deriving DecidableEq, Repr

/-- A car record (Table 1-1). -/
structure Car where
  binding : Option Hid
  link : LinkState
  lastSeq : Option Nat
  inputs : Inputs
  lowBattery : Bool
  calLo : Nat
  calHi : Nat
  raceCurve : Curve
  cautionCurve : Curve
  speedLimit : Nat
  accelStep : Nat
  decelStep : Nat
  watchTimeout : Nat
  pendingWatch : Option Nat
  fadeStep : Nat
  fadeCap : Nat
  laneMode : LaneMode
  retryMode : RetryMode
  armed : Bool
  consoleDrive : Option Nat
  vtop : Nat
  accelMargin : Nat
  decelMargin : Nat
  carLength : Nat
  target : Nat
  output : Nat
  brakeRequest : Bool
  storeStatus : StoreStatus
  deriving DecidableEq, Repr

/-! ### Handset Receiver (02_handset_link.md) -/

/-- The receive side (R20): IN_FRAME holds the characters collected after the start byte. -/
inductive Receiver where
  | hunt
  | inFrame (collected : List Byte)
  deriving DecidableEq, Repr

/-- The fields of a handset frame that passed its length, character and CRC-8 checks (R195). -/
structure HandsetFrame where
  hid : Hid
  seq : Nat
  lane : Bool
  brake : Bool
  bind : Bool
  wake : Bool
  thr : Nat
  batt : Nat
  deriving DecidableEq, Repr

/-- An entry of the unbound handset list (R29). -/
structure UnboundEntry where
  hid : Hid
  lastSeq : Nat
  lastHeard : TrackTime
  bind : Bool
  batt : Nat
  deriving DecidableEq, Repr

inductive NoticeKind where
  | candidate | bound | refused
  deriving DecidableEq, Repr

/-- A notice (R38). -/
structure Notice where
  hid : Hid
  kind : NoticeKind
  deriving DecidableEq, Repr

/-! ### Rail Frame Generator (05_rail_frames.md) -/

inductive BurstState where
  | idle | active
  deriving DecidableEq, Repr

/-- The words of a rail frame: eight car words and the status word (R81, R199). -/
structure RailFrame where
  words : Vector Byte 8
  status : Byte
  deriving DecidableEq, Repr

/-- The two bytes of a PROGRAM word (R88, R199). -/
structure ProgramFrame where
  id : Byte
  complement : Byte
  deriving DecidableEq, Repr

/-- The state of the Rail Frame Generator (R77), with what stands on its two outputs. -/
structure Rail where
  frameInterval : Nat
  settleCount : Nat
  power : Bool
  nextStart : Option TrackTime
  frameCount : BitVec 16
  settleCounter : Nat
  burst : BurstState
  burstSlot : Option Slot
  burstRepeat : Option Nat
  programSent : Nat
  raildata : Option RailFrame
  padfeed : Option ProgramFrame
  deriving DecidableEq, Repr

/-! ### Track State Controller (04_track_states.md) -/

/-- The track state (R62). -/
inductive TrackState where
  | standby | settle | halt | run | caution
  deriving DecidableEq, Repr

/-- The source of an auto-caution request (R72). -/
inductive CautionSource where
  | lapse | lateConflict | nodeFault
  deriving DecidableEq, Repr

/-- The caution cause (R74). -/
inductive CautionCause where
  | console | lapse | lateConflict | nodeFault
  deriving DecidableEq, Repr

/-- The last wake (R74). -/
inductive WakeCause where
  | console
  | handset (slot : Slot)
  deriving DecidableEq, Repr

inductive CautionLanes where
  | allow | deny
  deriving DecidableEq, Repr

inductive PointerMode where
  | one | random
  deriving DecidableEq, Repr

/-- The options (R73): true is enabled. -/
structure Options where
  cautionLanes : CautionLanes
  handsetWake : Bool
  pointerMode : PointerMode
  autoLapse : Bool
  autoLateConflict : Bool
  autoNodeFault : Bool
  deriving DecidableEq, Repr

/-! ### Node Bus Interface (06_track_node_bus.md) -/

inductive Role where
  | none | sect | gate | pad
  deriving DecidableEq, Repr

inductive NodeKind where
  | sect | gate | pad
  deriving DecidableEq, Repr

inductive NodeStatus where
  | unconfigured | unheard | live | silent | mismatch
  deriving DecidableEq, Repr

inductive NodeFault where
  | coilOpen | coilShort | sensorBlocked
  deriving DecidableEq, Repr

/-- A registry entry (R94). -/
structure Node where
  role : Role
  declared : Option NodeKind
  status : NodeStatus
  lastHeard : Option TrackTime
  fault : Option NodeFault
  deriving DecidableEq, Repr

inductive Lane where
  | a | b
  deriving DecidableEq, Repr

inductive Sensor where
  | entry | exit
  deriving DecidableEq, Repr

inductive Occupancy where
  | empty | one | many
  deriving DecidableEq, Repr

/-- The payload of a checked message of a node (R92); an absent slot or id is UNREAD. -/
inductive NodeMessage where
  | hello (kind : NodeKind)
  | sense (sensor : Sensor) (lane : Lane) (car : Option Slot) (age : Nat)
  | pad (occupancy : Occupancy) (readId : Option Slot)
  | fault (kind : NodeFault)
  deriving DecidableEq, Repr

/-- A THROW message (R92, R141). -/
structure Throw where
  dest : Addr
  lane : Lane
  car : Slot
  pullIn : Nat
  holdDuty : Nat
  hold : Nat
  deriving DecidableEq, Repr

/-! ### Position Tracker and Section Arbiter (07, 08, 09) -/

/-- A car position record (R118). -/
structure Position where
  lastNode : Option Addr
  lastLane : Option Lane
  lastSensor : Option Sensor
  lastSeen : Option TrackTime
  level : Option Nat
  expectedLane : Option Lane
  deriving DecidableEq, Repr

/-- The car of a claim or a decision record: a slot, or ANON (R111, R154). -/
inductive CarRef where
  | anon
  | slot (k : Slot)
  deriving DecidableEq, Repr

inductive ClaimKind where
  | straightA | straightB | crossAB | crossBA
  deriving DecidableEq, Repr

inductive ClaimOrigin where
  | lookahead | sensed
  deriving DecidableEq, Repr

inductive ClaimState where
  | predicted | entered | pending | granted
  deriving DecidableEq, Repr

/-- A clear time: a track time or UNBOUNDED (R111). -/
inductive ClearTime where
  | bounded (t : TrackTime)
  | unbounded
  deriving DecidableEq, Repr

/-- A claim (R111) with its lapse time (R113), absent for an UNBOUNDED clear time. -/
structure Claim where
  car : CarRef
  kind : ClaimKind
  origin : ClaimOrigin
  state : ClaimState
  sense : TrackTime
  enter : TrackTime
  clear : ClearTime
  decideTime : Option TrackTime
  exitLane : Lane
  lapse : Option TrackTime
  deriving DecidableEq, Repr

inductive AdminState where
  | opened | closing | closed
  deriving DecidableEq, Repr

/-- An upstream link: a node address and a distance in mm (R107). -/
structure Link where
  node : Addr
  distance : Nat
  deriving DecidableEq, Repr

/-- The map parameters of a section (R107). -/
structure SectionMap where
  approach : Nat
  crossing : Nat
  straight : Nat
  linkA : Option Link
  linkB : Option Link
  guard : Nat
  lead : Nat
  pullIn : Nat
  holdDuty : Nat
  coilLimit : Nat
  exitSlack : Nat
  anonClear : Nat
  deriving DecidableEq, Repr

/-- A section record (R107, R108). The contest pointer is a slot. -/
structure Section where
  map : SectionMap
  admin : AdminState
  overflow : Bool
  lastOverflow : Option TrackTime
  pointer : Slot
  claims : List Claim
  lapseCount : Nat
  overflowCount : Nat
  deriving DecidableEq, Repr

inductive DecisionOutcome where
  | grant | deny | lapse | missedThrow | unexpectedCross | lateConflict
  deriving DecidableEq, Repr

inductive DenyReason where
  | conflict | contestLost | closed | blind | state | tooSlow | tooLate | busBusy
  deriving DecidableEq, Repr

/-- A decision record (R154). -/
structure Decision where
  time : TrackTime
  addr : Addr
  car : CarRef
  outcome : DecisionOutcome
  reason : Option DenyReason
  other : Option CarRef
  coilCap : Bool
  deriving DecidableEq, Repr

/-! ### Pairing Controller and Binding Store (10) -/

inductive PairingState where
  | idle | awaitCar | programming | verify | awaitHandset | confirm
  deriving DecidableEq, Repr

inductive PairingMode where
  | auto
  | slot (k : Slot)
  deriving DecidableEq, Repr

/-- The pairing in progress (R158). -/
structure Pairing where
  state : PairingState
  mode : Option PairingMode
  slot : Option Slot
  attempt : Nat
  candidate : Option Hid
  ignored : Nat
  windowExpiry : Option TrackTime
  verifyExpiry : Option TrackTime
  confirmExpiry : Option TrackTime
  deriving DecidableEq, Repr

inductive PairingOutcome where
  | none | bound | contested | noSlot | programFailed | padLost | timeout | aborted
  deriving DecidableEq, Repr

/-- The store status of a pairing result (R169, R198). -/
inductive ResultStore where
  | saved | pending | unsaved | none
  deriving DecidableEq, Repr

/-- The pairing result record (R169, R170). -/
structure PairingResult where
  slot : Option Slot
  hid : Option Hid
  outcome : PairingOutcome
  attempts : Nat
  ignored : Nat
  store : ResultStore
  deriving DecidableEq, Repr

/-- The pairing parameters (R159). -/
structure PairingParams where
  window : Nat
  confirm : Nat
  programRepeat : Nat
  verifyWait : Nat
  attempts : Nat
  deriving DecidableEq, Repr

inductive LoadState where
  | loading | ready
  deriving DecidableEq, Repr

/-- A stored binding record (R172, R200): its six bytes, or `damaged`, a record whose write failed or was
cut short, of which the spec says only that it is not good (R176, R177). -/
inductive StoredRecord where
  | bytes (slot hid3 hid2 hid1 hid0 check : Byte)
  | damaged
  deriving DecidableEq, Repr

/-- A write in flight: the slot and the HID, or the erased mark (R172). -/
structure StoreWrite where
  slot : Slot
  hid : Option Hid
  deriving DecidableEq, Repr

/-- The Binding Store (R172). -/
structure Store where
  records : Vector StoredRecord 8
  load : LoadState
  dirty : Vector Bool 8
  inFlight : Option StoreWrite
  bad : Vector Bool 8
  deriving DecidableEq, Repr

/-! ### Console Interface (11) -/

/-- The latched event flags (R187); DECISION is a view of the decision queue (R188). -/
structure LatchedFlags where
  state : Bool
  link : Bool
  pairing : Bool
  fault : Bool
  node : Bool
  batt : Bool
  overflow : Bool
  deriving DecidableEq, Repr

/-- One bit for each of the eight event flags, in the order of Table 12-5: the flags, the enables (R190),
the mask of ACK_EVENTS (R189). -/
structure EventMask where
  state : Bool
  link : Bool
  pairing : Bool
  decision : Bool
  fault : Bool
  node : Bool
  batt : Bool
  overflow : Bool
  deriving DecidableEq, Repr

/-- The statuses of a response (R181). -/
inductive Status where
  | ok | okClamped | accepted | busy | wrongState | notReady | noPad | noRoom | railFault | badArg
  deriving DecidableEq, Repr

/-- A response frame: a status and the data bytes, whose count is the length M (R179, R198). -/
structure Response where
  status : Status
  data : List Byte
  deriving DecidableEq, Repr

end Sys2Proof.Machine
end

