-- ==== Sys2Proof/Machine/Wire.lean ====
section
/-! DEFINITION. Chapter 12: byte order, CRC-8, the codes of enumerations, and the layouts of the frames,
words and binding records that the part sends, receives and stores. -/

namespace Sys2Proof.Machine

/-! ### Byte order and CRC-8 (R194) -/

/-- A number as one byte. -/
def byte1 (n : Nat) : Byte := BitVec.ofNat 8 n

/-- A number as two bytes, most significant first. -/
def bytes2 (n : Nat) : List Byte := [BitVec.ofNat 8 (n / 256), BitVec.ofNat 8 n]

/-- A 32-bit value as four bytes, most significant first. -/
def bytes4 (v : BitVec 32) : List Byte :=
  [v.extractLsb' 24 8, v.extractLsb' 16 8, v.extractLsb' 8 8, v.extractLsb' 0 8]

/-- The number of two bytes, most significant first. -/
def nat2 (hi lo : Byte) : Nat := hi.toNat * 256 + lo.toNat

/-- The 32-bit value of four bytes, most significant first. -/
def word4 (b3 b2 b1 b0 : Byte) : BitVec 32 := b3 ++ b2 ++ b1 ++ b0

/-- One bit of the CRC-8 register with generator x^8 + x^2 + x + 1 (07h). -/
def crcShift (r : Byte) : Byte := if r.msb then (r <<< 1) ^^^ 0x07#8 else r <<< 1

/-- One byte entered most significant bit first. -/
def crcByte (r b : Byte) : Byte := Nat.iterate crcShift 8 (r ^^^ b)

/-- The CRC-8 of a run of bytes: start FFh, no final inversion. -/
def crc8 (bs : List Byte) : Byte := bs.foldl crcByte 0xFF#8

/-! ### Codes of enumerations: 00h for the first value of the defining table (Table 12-5) -/

def LinkState.code : LinkState → Byte
  | .none => 0 | .silent => 1 | .live => 2 | .fade => 3 | .lost => 4

def LaneMode.code : LaneMode → Byte
  | .hold => 0 | .latch => 1

def RetryMode.code : RetryMode → Byte
  | .keep => 0 | .drop => 1

def StoreStatus.code : StoreStatus → Byte
  | .saved => 0 | .pending => 1 | .unsaved => 2

def ResultStore.code : ResultStore → Byte
  | .saved => 0 | .pending => 1 | .unsaved => 2 | .none => 3

def TrackState.code : TrackState → Byte
  | .standby => 0 | .settle => 1 | .halt => 2 | .run => 3 | .caution => 4

def CautionCause.code : CautionCause → Byte
  | .console => 0 | .lapse => 1 | .lateConflict => 2 | .nodeFault => 3

def CautionLanes.code : CautionLanes → Byte
  | .allow => 0 | .deny => 1

def PointerMode.code : PointerMode → Byte
  | .one => 0 | .random => 1

/-- An option of the values "enabled, disabled": 00h is enabled (R73, Table 12-5; notes/assumptions/18.md). -/
def enabledCode (b : Bool) : Byte := if b then 0 else 1

def Role.code : Role → Byte
  | .none => 0 | .sect => 1 | .gate => 2 | .pad => 3

def NodeKind.code : NodeKind → Byte
  | .sect => 0 | .gate => 1 | .pad => 2

def NodeStatus.code : NodeStatus → Byte
  | .unconfigured => 0 | .unheard => 1 | .live => 2 | .silent => 3 | .mismatch => 4

def NodeFault.code : NodeFault → Byte
  | .coilOpen => 0 | .coilShort => 1 | .sensorBlocked => 2

def Lane.code : Lane → Byte
  | .a => 0 | .b => 1

def ClaimKind.code : ClaimKind → Byte
  | .straightA => 0 | .straightB => 1 | .crossAB => 2 | .crossBA => 3

def ClaimOrigin.code : ClaimOrigin → Byte
  | .lookahead => 0 | .sensed => 1

def ClaimState.code : ClaimState → Byte
  | .predicted => 0 | .entered => 1 | .pending => 2 | .granted => 3

def AdminState.code : AdminState → Byte
  | .opened => 0 | .closing => 1 | .closed => 2

def DecisionOutcome.code : DecisionOutcome → Byte
  | .grant => 0 | .deny => 1 | .lapse => 2 | .missedThrow => 3 | .unexpectedCross => 4 | .lateConflict => 5

def DenyReason.code : DenyReason → Byte
  | .conflict => 0 | .contestLost => 1 | .closed => 2 | .blind => 3 | .state => 4 | .tooSlow => 5
  | .tooLate => 6 | .busBusy => 7

def PairingState.code : PairingState → Byte
  | .idle => 0 | .awaitCar => 1 | .programming => 2 | .verify => 3 | .awaitHandset => 4 | .confirm => 5

def PairingOutcome.code : PairingOutcome → Byte
  | .none => 0 | .bound => 1 | .contested => 2 | .noSlot => 3 | .programFailed => 4 | .padLost => 5
  | .timeout => 6 | .aborted => 7

def NoticeKind.code : NoticeKind → Byte
  | .candidate => 0 | .bound => 1 | .refused => 2

/-- The status codes of R198. -/
def Status.code : Status → Byte
  | .ok => 0x00 | .okClamped => 0x01 | .accepted => 0x02 | .busy => 0x10 | .wrongState => 0x11
  | .notReady => 0x12 | .noPad => 0x13 | .noRoom => 0x14 | .railFault => 0x15 | .badArg => 0x1F

/-- yes/no and pressed/released: no and released are 00h; a present mark is 01h (Table 12-5;
notes/assumptions/17.md). -/
def flagCode (b : Bool) : Byte := if b then 1 else 0

def slotCode (k : Slot) : Byte := byte1 (slotNumber k)

def addrCode (a : Addr) : Byte := byte1 (addrNumber a)

def carRefCode : CarRef → Byte
  | .anon => 0
  | .slot k => slotCode k

/-- RAILFLT "asserted, deasserted": 00h is asserted (R74, Table 12-5; notes/assumptions/18.md). -/
def lineCode (asserted : Bool) : Byte := if asserted then 0 else 1

/-- A field of the optional class: a presence byte, then the value, all 0 when absent (Table 12-5). -/
def optional {α : Type} (width : Nat) (value : α → List Byte) : Option α → List Byte
  | none => 0 :: List.replicate width 0
  | some v => 1 :: value v

/-- A clear time: presence 02h stands for UNBOUNDED (Table 12-5). -/
def clearBytes : ClearTime → List Byte
  | .bounded t => 1 :: bytes4 t
  | .unbounded => [2, 0, 0, 0, 0]

/-- The event flags and enables in one byte, bit 0 STATE (Table 12-5). -/
def EventMask.code (m : EventMask) : Byte :=
  byte1 (m.state.toNat + 2 * m.link.toNat + 4 * m.pairing.toNat + 8 * m.decision.toNat
    + 16 * m.fault.toNat + 32 * m.node.toNat + 64 * m.batt.toNat + 128 * m.overflow.toNat)

/-- The eight marks of a mask byte (Table 12-5). -/
def EventMask.ofByte (b : Byte) : EventMask where
  state := b.getLsbD 0
  link := b.getLsbD 1
  pairing := b.getLsbD 2
  decision := b.getLsbD 3
  fault := b.getLsbD 4
  node := b.getLsbD 5
  batt := b.getLsbD 6
  overflow := b.getLsbD 7

/-! ### Reading slots, addresses and codes -/

/-- The slot of a byte 01h..08h; none for every other value. -/
def slotOfByte (b : Byte) : Option Slot :=
  if h : 1 ≤ b.toNat ∧ b.toNat ≤ 8 then some ⟨b.toNat - 1, by omega⟩ else none

/-- The node address of a number 1..15; none for every other value. -/
def addrOfNat (n : Nat) : Option Addr :=
  if h : 1 ≤ n ∧ n ≤ 15 then some ⟨n - 1, by omega⟩ else none

/-- The node address of a console argument byte 1..15. -/
def addrOfByte (b : Byte) : Option Addr := addrOfNat b.toNat

def laneModeOfByte (b : Byte) : Option LaneMode :=
  match b.toNat with
  | 0 => some .hold | 1 => some .latch | _ => none

def retryModeOfByte (b : Byte) : Option RetryMode :=
  match b.toNat with
  | 0 => some .keep | 1 => some .drop | _ => none

def roleOfByte (b : Byte) : Option Role :=
  match b.toNat with
  | 0 => some .none | 1 => some .sect | 2 => some .gate | 3 => some .pad | _ => none

def cautionLanesOfByte (b : Byte) : Option CautionLanes :=
  match b.toNat with
  | 0 => some .allow | 1 => some .deny | _ => none

def enabledOfByte (b : Byte) : Option Bool :=
  match b.toNat with
  | 0 => some true | 1 => some false | _ => none

def pointerModeOfByte (b : Byte) : Option PointerMode :=
  match b.toNat with
  | 0 => some .one | 1 => some .random | _ => none

def nodeKindOfByte (b : Byte) : Option NodeKind :=
  match b.toNat with
  | 0 => some .sect | 1 => some .gate | 2 => some .pad | _ => none

def nodeFaultOfByte (b : Byte) : Option NodeFault :=
  match b.toNat with
  | 0 => some .coilOpen | 1 => some .coilShort | 2 => some .sensorBlocked | _ => none

/-! ### Handset Link frames (R195) -/

/-- The length byte of a handset frame (Table 12-1). -/
def handsetLength : Byte := 0x07

def handsetStart : Byte := 0xA5

/-- The fields of a frame's characters from the length byte to the CRC-8, if the CRC-8 matches (R21, R195;
bits 7..3 of the BATT byte are not read, R197). -/
def parseHandset (chars : List Byte) : Option HandsetFrame :=
  match chars with
  | [len, h3, h2, h1, h0, sb, thr, batt, crc] =>
    if crc8 [len, h3, h2, h1, h0, sb, thr, batt] = crc then
      some {
        hid := word4 h3 h2 h1 h0
        seq := sb.toNat % 16
        lane := sb.getLsbD 4
        brake := sb.getLsbD 5
        bind := sb.getLsbD 6
        wake := sb.getLsbD 7
        thr := thr.toNat
        batt := batt.toNat % 8 }
    else none
  | _ => none

/-- The bytes of a handset frame as the transceiver sends it (Table 12-1). -/
def handsetBytes (f : HandsetFrame) : List Byte :=
  let body := handsetLength :: (bytes4 f.hid
    ++ [byte1 (f.seq % 16 + 16 * f.lane.toNat + 32 * f.brake.toNat + 64 * f.bind.toNat + 128 * f.wake.toNat),
        byte1 f.thr, byte1 f.batt])
  handsetStart :: (body ++ [crc8 body])

/-- A valid handset identity is neither 0 nor FFFFFFFFh (00_scope.md). -/
def validHid (h : Hid) : Bool := h != 0 && h != 0xFFFFFFFF#32

/-- The bytes of a notice frame (Table 12-2). -/
def noticeBytes (n : Notice) : List Byte :=
  let body := (0x05 : Byte) :: (bytes4 n.hid ++ [n.kind.code])
  (0x5A : Byte) :: (body ++ [crc8 body])

/-! ### Track Node Bus frames (R196, R197) -/

/-- The payload of a node's message by its kind byte: none where the payload length or a code is not the
kind's own (R91 payload check, R197). -/
def parsePayload (kind : Nat) (payload : List Byte) : Option NodeMessage :=
  match kind, payload with
  | 1, [k] => (nodeKindOfByte k).map .hello
  | 2, [b, car, age] =>
    some (.sense (if b.getLsbD 0 then .exit else .entry) (if b.getLsbD 1 then .b else .a)
      (slotOfByte car) age.toNat)
  | 3, [occ, id] =>
    match occ.toNat with
    | 0 => some (.pad .empty none)
    | 1 => some (.pad .one (slotOfByte id))
    | 2 => some (.pad .many none)
    | _ => none
  | 4, [k] => (nodeFaultOfByte k).map .fault
  | _, _ => none

/-- What R91 makes of a frame on the bus: discarded and counted, addressed to another station, or a checked
message to address 0 from a node. -/
inductive BusFrame where
  | bad
  | elsewhere
  | message (source : Addr) (m : NodeMessage)
  deriving DecidableEq, Repr

/-- The checks of R91 in their order: size, CRC-8, source, kind, payload; then the destination. Bits 7..4 of
an address byte are not read (R197). -/
def parseBusFrame (bytes : List Byte) : BusFrame :=
  if bytes.length < 4 ∨ 10 < bytes.length then .bad
  else if crc8 bytes.dropLast ≠ bytes.getLastD 0 then .bad
  else
    match bytes.dropLast with
    | src :: dst :: kind :: payload =>
      match addrOfNat (src.toNat % 16) with
      | none => .bad
      | some a =>
        if kind.toNat < 1 ∨ 4 < kind.toNat then .bad
        else
          match parsePayload kind.toNat payload with
          | none => .bad
          | some m => if dst.toNat % 16 = 0 then .message a m else .elsewhere
    | _ => .bad

/-- A slot, or 00h for UNREAD (Table 12-3). -/
def unreadCode : Option Slot → Byte
  | none => 0
  | some k => slotCode k

/-- The kind byte and payload with which a node sends a message (Table 12-3). -/
def messageBytes : NodeMessage → List Byte
  | .hello k => [0x01, k.code]
  | .sense sensor lane car age =>
    [0x02, byte1 ((if sensor = .exit then 1 else 0) + (if lane = .b then 2 else 0)), unreadCode car, byte1 age]
  | .pad .empty _ => [0x03, 0x00, 0x00]
  | .pad .one id => [0x03, 0x01, unreadCode id]
  | .pad .many _ => [0x03, 0x02, 0x00]
  | .fault k => [0x04, k.code]

/-- The frame in which node `a` sends a message to the part (R196). -/
def nodeFrameBytes (a : Addr) (m : NodeMessage) : List Byte :=
  let body := addrCode a :: (0 : Byte) :: messageBytes m
  body ++ [crc8 body]

/-- The bytes of a THROW on the bus, from address 0 (Table 12-3). -/
def throwBytes (t : Throw) : List Byte :=
  let body := [(0 : Byte), addrCode t.dest, 0x10, t.lane.code, slotCode t.car, byte1 t.pullIn, byte1 t.holdDuty]
    ++ bytes2 t.hold
  body ++ [crc8 body]

/-! ### Rail and pad words (R199, Table 12-6) -/

/-- The number of one bits of a byte. -/
def onesOf (b : Byte) : Nat := ((List.range 8).map fun i => (b.getLsbD i).toNat).foldl (· + ·) 0

/-- Bit 7 set so that the word holds an even number of one bits. -/
def withParity (b : Byte) : Byte := if onesOf b % 2 = 1 then b ||| 0x80#8 else b

/-- A car word: speed code, brake flag, lane flag, parity. -/
def carWord (code : Nat) (brake lane : Bool) : Byte :=
  withParity (byte1 (code % 32 + 32 * brake.toNat + 64 * lane.toNat))

/-- A blanked car word: speed code 0, brake flag set, lane flag clear (R82). -/
def blankWord : Byte := carWord 0 true false

/-- The track state code of the status word; SETTLE is sent as HALT (R83). No frame is sent in STANDBY. -/
def trackCode : TrackState → Nat
  | .standby => 0 | .settle => 0 | .halt => 0 | .run => 1 | .caution => 2

/-- The status word: track state code and frame count modulo 16 (R83). -/
def statusWord (t : TrackState) (count : BitVec 16) : Byte :=
  withParity (byte1 (trackCode t + 4 * (count.toNat % 16)))

/-- The PROGRAM word for slot k: the id, then the complement of its low seven bits, each with parity. -/
def programFrame (k : Slot) : ProgramFrame :=
  let first := withParity (slotCode k)
  { id := first, complement := withParity (~~~ first &&& 0x7F#8) }

/-- The bits of a word, bit 0 first. -/
def wordBits (b : Byte) : List Bool := (List.range 8).map fun i => b.getLsbD i

/-- Sixteen one bits followed by one zero bit. -/
def syncBits : List Bool := List.replicate 16 true ++ [false]

/-- The bits of a rail frame on RAILDATA in the order sent (R199). -/
def RailFrame.bits (f : RailFrame) : List Bool :=
  syncBits ++ (f.words.toList.flatMap wordBits ++ wordBits f.status)

/-- The bits of a program frame on PADFEED in the order sent (R199). -/
def ProgramFrame.bits (f : ProgramFrame) : List Bool :=
  syncBits ++ (wordBits f.id ++ wordBits f.complement)

/-! ### Binding records (R200) -/

/-- The erased mark. -/
def erasedMark : Hid := 0xFFFFFFFF#32

/-- The record written for slot k with a HID or the erased mark, and the check byte over both. That the identity stands most
significant byte first is the model's choice (notes/assumptions/44.md). -/
def bindingRecord (k : Slot) (hid : Option Hid) : StoredRecord :=
  let h := hid.getD erasedMark
  let b3 := h.extractLsb' 24 8
  let b2 := h.extractLsb' 16 8
  let b1 := h.extractLsb' 8 8
  let b0 := h.extractLsb' 0 8
  .bytes (slotCode k) b3 b2 b1 b0 (crc8 [slotCode k, b3, b2, b1, b0])

/-- What the record in slot k's place holds: none where it is not good, otherwise the HID or the erased mark
(R172, R200). The identity is read most significant byte first (notes/assumptions/44.md). -/
def readRecord (k : Slot) (r : StoredRecord) : Option (Option Hid) :=
  match r with
  | .damaged => none
  | .bytes sl b3 b2 b1 b0 chk =>
    if crc8 [sl, b3, b2, b1, b0] = chk ∧ sl = slotCode k then
      if word4 b3 b2 b1 b0 = erasedMark then some none
      else if validHid (word4 b3 b2 b1 b0) then some (some (word4 b3 b2 b1 b0))
      else none
    else none

/-- The bytes of a response frame: status, length, data (R198). -/
def Response.bytes (r : Response) : List Byte :=
  r.status.code :: byte1 r.data.length :: r.data

end Sys2Proof.Machine
end

