-- ==== Sys2Proof/Machine/Operands.lean ====
section
/-! DEFINITION. The operand forms of the console commands: the argument bytes of each frame (R198, Tables
12-4 and 12-5) read into the fields the owning rule names. A parser answers none exactly for a structural
error of R182: a wrong length, a slot or address out of range, an undefined code, an undefined presence
mark. An unmarked value is not read. -/

namespace Sys2Proof.Machine

/-- The marks are at most those of the command's n parameters (R198). -/
def marksDefined (marks n : Nat) : Bool := decide (marks < 2 ^ n)

/-- A numeric value with presence bit i. -/
def given (marks i v : Nat) : Option Nat := if marks.testBit i then some v else none

/-- A coded value with presence bit i: none for a marked undefined code, some none when unmarked. -/
def givenCode {α : Type} (marks i : Nat) (v : Option α) : Option (Option α) :=
  if marks.testBit i then v.map some else some none

/-- v brought to the nearer end of lo..hi (00_scope.md "Console parameters"). -/
def clamp (lo hi v : Nat) : Nat := max lo (min hi v)

/-- A given value is changed by its clamp. -/
def clampChanges (lo hi : Nat) (v : Option Nat) : Bool :=
  match v with
  | some n => clamp lo hi n != n
  | none => false

/-- A parameter after a SET command: the clamped value where given, the old one where not. -/
def setParam (lo hi : Nat) (v : Option Nat) (old : Nat) : Nat :=
  match v with
  | some n => clamp lo hi n
  | none => old

/-! ### No argument, a slot, an address -/

def parseNone (args : List Byte) : Option Unit :=
  match args with
  | [] => some ()
  | _ => none

def parseSlot (args : List Byte) : Option Slot :=
  match args with
  | [b] => slotOfByte b
  | _ => none

def parseAddr (args : List Byte) : Option Addr :=
  match args with
  | [b] => addrOfByte b
  | _ => none

/-- An event mask (R189, R190). -/
def parseMask (args : List Byte) : Option EventMask :=
  match args with
  | [b] => some (EventMask.ofByte b)
  | _ => none

/-! ### Track -/

/-- SET_OPTIONS: the options given (R73). -/
structure OptionsReq where
  cautionLanes : Option CautionLanes
  handsetWake : Option Bool
  pointerMode : Option PointerMode
  autoLapse : Option Bool
  autoLateConflict : Option Bool
  autoNodeFault : Option Bool
  deriving DecidableEq, Repr

/-- The presence marks, then the six options (R73, R198): where the marks stand is the model's choice
(notes/assumptions/37.md). -/
def parseOptions (args : List Byte) : Option OptionsReq :=
  match args with
  | [marks, lanes, wake, mode, lapse, late, fault] =>
    if marksDefined marks.toNat 6 then
      match givenCode marks.toNat 0 (cautionLanesOfByte lanes), givenCode marks.toNat 1 (enabledOfByte wake),
        givenCode marks.toNat 2 (pointerModeOfByte mode), givenCode marks.toNat 3 (enabledOfByte lapse),
        givenCode marks.toNat 4 (enabledOfByte late), givenCode marks.toNat 5 (enabledOfByte fault) with
      | some a, some b, some c, some d, some e, some f => some ⟨a, b, c, d, e, f⟩
      | _, _, _, _, _, _ => none
    else none
  | _ => none

/-- SET_RAIL: the settings given (R80). -/
structure RailReq where
  frameInterval : Option Nat
  settleCount : Option Nat
  deriving DecidableEq, Repr

/-- The presence marks, then the two settings (R80, R198): where the marks stand is the model's choice
(notes/assumptions/37.md). -/
def parseRail (args : List Byte) : Option RailReq :=
  match args with
  | [marks, interval, count] =>
    if marksDefined marks.toNat 2 then
      some ⟨given marks.toNat 0 interval.toNat, given marks.toNat 1 count.toNat⟩
    else none
  | _ => none

/-! ### Cars -/

/-- SET_CAR: the parameters given, in R16's order. -/
structure CarReq where
  slot : Slot
  calLo : Option Nat
  calHi : Option Nat
  speedLimit : Option Nat
  accelStep : Option Nat
  decelStep : Option Nat
  fadeStep : Option Nat
  laneMode : Option LaneMode
  retryMode : Option RetryMode
  vtop : Option Nat
  accelMargin : Option Nat
  decelMargin : Option Nat
  carLength : Option Nat
  deriving DecidableEq, Repr

/-- The slot, the two bytes of presence marks, then the parameters (R16, R198): where the marks stand is the model's
choice (notes/assumptions/37.md). -/
def parseCar (args : List Byte) : Option CarReq :=
  match args with
  | [sl, m1, m0, lo, hi, lim, acc, dec, fade, lane, retry, v1, v0, up, dn, len] =>
    let m := nat2 m1 m0
    if marksDefined m 12 then
      match slotOfByte sl, givenCode m 6 (laneModeOfByte lane), givenCode m 7 (retryModeOfByte retry) with
      | some k, some laneMode, some retryMode =>
        some {
          slot := k
          calLo := given m 0 lo.toNat
          calHi := given m 1 hi.toNat
          speedLimit := given m 2 lim.toNat
          accelStep := given m 3 acc.toNat
          decelStep := given m 4 dec.toNat
          fadeStep := given m 5 fade.toNat
          laneMode := laneMode
          retryMode := retryMode
          vtop := given m 8 (nat2 v1 v0)
          accelMargin := given m 9 up.toNat
          decelMargin := given m 10 dn.toNat
          carLength := given m 11 len.toNat }
      | _, _, _ => none
    else none
  | _ => none

inductive CurveSet where
  | race | caution
  deriving DecidableEq, Repr

/-- SET_CURVE (R17): 00h is RACE, 01h CAUTION. -/
structure CurveReq where
  slot : Slot
  set : CurveSet
  points : Curve
  deriving DecidableEq, Repr

def curveSetOfByte (b : Byte) : Option CurveSet :=
  match b.toNat with
  | 0 => some .race | 1 => some .caution | _ => none

def parseCurve (args : List Byte) : Option CurveReq :=
  match args with
  | [sl, set, p0, p1, p2, p3, p4, p5, p6, p7, p8] =>
    match slotOfByte sl, curveSetOfByte set with
    | some k, some c =>
      some ⟨k, c, #v[p0.toNat, p1.toNat, p2.toNat, p3.toNat, p4.toNat, p5.toNat, p6.toNat, p7.toNat, p8.toNat]⟩
    | _, _ => none
  | _ => none

/-- SET_WATCH (R8). -/
structure WatchReq where
  slot : Slot
  ms : Nat
  deriving DecidableEq, Repr

def parseWatch (args : List Byte) : Option WatchReq :=
  match args with
  | [sl, t1, t0] => (slotOfByte sl).map fun k => ⟨k, nat2 t1 t0⟩
  | _ => none

/-- DRIVE (R12): a level, or none for RELEASE. -/
structure DriveReq where
  slot : Slot
  level : Option Nat
  deriving DecidableEq, Repr

def parseDrive (args : List Byte) : Option DriveReq :=
  match args with
  | [sl, mark, level] =>
    match slotOfByte sl, mark.toNat with
    | some k, 0 => some ⟨k, some level.toNat⟩
    | some k, 1 => some ⟨k, none⟩
    | _, _ => none
  | _ => none

/-! ### Nodes and sections -/

/-- SET_NODE (R97). -/
structure NodeReq where
  addr : Addr
  role : Role
  deriving DecidableEq, Repr

def parseNode (args : List Byte) : Option NodeReq :=
  match args with
  | [a, r] =>
    match addrOfByte a, roleOfByte r with
    | some addr, some role => some ⟨addr, role⟩
    | _, _ => none
  | _ => none

/-- The upstream link bytes of SET_SECTION: an address, 00h for absent, and a distance; none for an address
outside 1..15 (R198, R109). -/
def linkOfBytes (a d1 d0 : Byte) : Option (Option Link) :=
  if a = 0 then some none
  else (addrOfByte a).map fun addr => some ⟨addr, nat2 d1 d0⟩

/-- SET_SECTION: the parameters given, in R107's order. -/
structure SectionReq where
  addr : Addr
  approach : Option Nat
  crossing : Option Nat
  straight : Option Nat
  linkA : Option (Option Link)
  linkB : Option (Option Link)
  guard : Option Nat
  lead : Option Nat
  pullIn : Option Nat
  holdDuty : Option Nat
  coilLimit : Option Nat
  exitSlack : Option Nat
  anonClear : Option Nat
  deriving DecidableEq, Repr

/-- The address, the two bytes of presence marks, then the parameters (R109, R198): where the marks stand is the
model's choice (notes/assumptions/37.md). -/
def parseSection (args : List Byte) : Option SectionReq :=
  match args with
  | [a, m1, m0, ap1, ap0, cr1, cr0, st1, st0, la, lad1, lad0, lb, lbd1, lbd0, gd, ld, pu, du, co1, co0, ex1, ex0,
      an] =>
    let m := nat2 m1 m0
    if marksDefined m 12 then
      match addrOfByte a, givenCode m 3 (linkOfBytes la lad1 lad0), givenCode m 4 (linkOfBytes lb lbd1 lbd0) with
      | some addr, some linkA, some linkB =>
        some {
          addr := addr
          approach := given m 0 (nat2 ap1 ap0)
          crossing := given m 1 (nat2 cr1 cr0)
          straight := given m 2 (nat2 st1 st0)
          linkA := linkA
          linkB := linkB
          guard := given m 5 gd.toNat
          lead := given m 6 ld.toNat
          pullIn := given m 7 pu.toNat
          holdDuty := given m 8 du.toNat
          coilLimit := given m 9 (nat2 co1 co0)
          exitSlack := given m 10 (nat2 ex1 ex0)
          anonClear := given m 11 an.toNat }
      | _, _, _ => none
    else none
  | _ => none

inductive CloseMode where
  | hold | now
  deriving DecidableEq, Repr

/-- CLOSE_SECTION (R116): 00h is HOLD, 01h NOW. -/
structure CloseReq where
  addr : Addr
  mode : CloseMode
  deriving DecidableEq, Repr

def closeModeOfByte (b : Byte) : Option CloseMode :=
  match b.toNat with
  | 0 => some .hold | 1 => some .now | _ => none

def parseClose (args : List Byte) : Option CloseReq :=
  match args with
  | [a, m] =>
    match addrOfByte a, closeModeOfByte m with
    | some addr, some mode => some ⟨addr, mode⟩
    | _, _ => none
  | _ => none

/-! ### Pairing -/

/-- OPEN_PAIRING (R160): 00h is AUTO. -/
def parseOpenPairing (args : List Byte) : Option PairingMode :=
  match args with
  | [b] => if b = 0 then some .auto else (slotOfByte b).map .slot
  | _ => none

/-- SET_PAIRING: the parameters given (R159). -/
structure PairingReq where
  window : Option Nat
  confirm : Option Nat
  programRepeat : Option Nat
  verifyWait : Option Nat
  attempts : Option Nat
  deriving DecidableEq, Repr

/-- The presence marks, then the five parameters (R159, R198): where the marks stand is the model's choice
(notes/assumptions/37.md). -/
def parsePairing (args : List Byte) : Option PairingReq :=
  match args with
  | [marks, w1, w0, c1, c0, rep, v1, v0, att] =>
    if marksDefined marks.toNat 5 then
      some {
        window := given marks.toNat 0 (nat2 w1 w0)
        confirm := given marks.toNat 1 (nat2 c1 c0)
        programRepeat := given marks.toNat 2 rep.toNat
        verifyWait := given marks.toNat 3 (nat2 v1 v0)
        attempts := given marks.toNat 4 att.toNat }
    else none
  | _ => none

end Sys2Proof.Machine
end

