-- ==== Sys2Proof/Config.lean ====
section
/-! DEFINITION. What the NX-208 fixes: the capacities of its lists and queues and its fixed times.
The spec leaves no value of an operation open, so there is no free value here. -/

namespace Sys2Proof.Config

/-- Entries of the unbound handset list (R29). -/
def unboundCapacity : Nat := 6

/-- Notices in the notice output queue (R38). -/
def noticeCapacity : Nat := 4

/-- Messages in the THROW transmit queue (R105). -/
def throwCapacity : Nat := 4

/-- Claims in one section's list (R112). -/
def claimCapacity : Nat := 6

/-- Records in the decision queue (R155). -/
def decisionCapacity : Nat := 16

/-- Registry entries that may hold the role SECTION (R97). -/
def sectionLimit : Nat := 8

/-- Largest value of a saturating counter (00_scope.md, "Counters"). -/
def counterMax : Nat := 65535

/-- Age-out of an unbound handset, ms (R31). -/
def ageOut : Nat := 3000

/-- Silence of a LIVE node, ms (R96). -/
def silence : Nat := 3000

/-- Overflow expiry of a section, ms (R114). -/
def overflowHold : Nat := 3000

/-- Below this many ms a second sighting at one sensor is a repeat (R119). -/
def repeatInterval : Int := 1000

/-- Travel times are taken as at most this many ms (R128). -/
def travelMax : Nat := 65535

end Sys2Proof.Config
end

