-- ==== Sys2Proof/Machine/Defaults.lean ====
section
/-! DEFINITION. The values of the records after POR or RST, and what a soft reset makes of them. -/

namespace Sys2Proof.Machine

/-- Handset inputs after every reset and change of binding: THR 0, released, BATT 7 (Table 1-1, R3). -/
def Inputs.initial : Inputs := { thr := 0, lane := false, brake := false, wake := false, batt := 7 }

/-- The default race curve (Table 1-1). -/
def defaultRaceCurve : Curve := #v[0, 32, 64, 96, 128, 160, 192, 224, 255]

/-- The default caution curve (Table 1-1). -/
def defaultCautionCurve : Curve := #v[0, 12, 24, 36, 48, 60, 72, 84, 96]

/-- A car record after POR or RST, before the load completes (Table 1-1, R4). The store status is set by
the load; the value before it is the model's choice (notes/assumptions/29.md). -/
def Car.por : Car where
  binding := none
  link := .none
  lastSeq := none
  inputs := Inputs.initial
  lowBattery := false
  calLo := 8
  calHi := 247
  raceCurve := defaultRaceCurve
  cautionCurve := defaultCautionCurve
  speedLimit := 255
  accelStep := 16
  decelStep := 255
  watchTimeout := 100
  pendingWatch := none
  fadeStep := 32
  fadeCap := 255
  laneMode := .latch
  retryMode := .keep
  armed := false
  consoleDrive := none
  vtop := 3000
  accelMargin := 48
  decelMargin := 48
  carLength := 140
  target := 0
  output := 0
  brakeRequest := false
  storeStatus := .saved

/-- The link state of a slot whose link has not been heard: SILENT if bound, NONE if unbound (R2, R3). -/
def quietLink (binding : Option Hid) : LinkState :=
  match binding with
  | some _ => .silent
  | none => .none

/-- A car record after a soft reset (Table 1-1). -/
def Car.softReset (r : Car) : Car :=
  { r with
    link := quietLink r.binding
    lastSeq := none
    inputs := Inputs.initial
    lowBattery := false
    pendingWatch := none
    fadeCap := 255
    armed := false
    consoleDrive := none
    target := 0
    output := 0
    brakeRequest := false }

/-- The Rail Frame Generator after POR or RST (R77). -/
def Rail.por : Rail where
  frameInterval := 6
  settleCount := 32
  power := false
  nextStart := none
  frameCount := 0
  settleCounter := 0
  burst := .idle
  burstSlot := none
  burstRepeat := none
  programSent := 0
  raildata := none
  padfeed := none

/-- The Rail Frame Generator after a soft reset: the rail settings are kept (R77). -/
def Rail.softReset (r : Rail) : Rail :=
  { Rail.por with frameInterval := r.frameInterval, settleCount := r.settleCount }

/-- The options after POR or RST (R73). -/
def Options.por : Options where
  cautionLanes := .deny
  handsetWake := false
  pointerMode := .one
  autoLapse := false
  autoLateConflict := false
  autoNodeFault := false

/-- A registry entry after POR or RST (R94). -/
def Node.por : Node :=
  { role := .none, declared := none, status := .unconfigured, lastHeard := none, fault := none }

/-- The status of an entry not heard: UNCONFIGURED if the role is NONE, otherwise UNHEARD (R94, R100). -/
def quietStatus (role : Role) : NodeStatus :=
  match role with
  | .none => .unconfigured
  | _ => .unheard

/-- A registry entry after a soft reset (R94). -/
def Node.softReset (n : Node) : Node :=
  { Node.por with role := n.role, status := quietStatus n.role }

/-- A car position record after every reset and STANDBY entry (R118). -/
def Position.absent : Position :=
  { lastNode := none, lastLane := none, lastSensor := none, lastSeen := none, level := none,
    expectedLane := none }

/-- The default map parameters of a section (R107). -/
def SectionMap.initial : SectionMap where
  approach := 250
  crossing := 600
  straight := 500
  linkA := none
  linkB := none
  guard := 40
  lead := 30
  pullIn := 20
  holdDuty := 40
  coilLimit := 1000
  exitSlack := 500
  anonClear := 64

/-- A section record as created by SET_NODE, with the contest pointer set by mode (R107, R108). -/
def Section.created (pointer : Slot) : Section where
  map := SectionMap.initial
  admin := .opened
  overflow := false
  lastOverflow := none
  pointer := pointer
  claims := []
  lapseCount := 0
  overflowCount := 0

/-- A section record after a soft reset: the map parameters are kept (R108). -/
def Section.softReset (pointer : Slot) (sec : Section) : Section :=
  { Section.created pointer with map := sec.map }

/-- No pairing in progress (R158). -/
def Pairing.idle : Pairing where
  state := .idle
  mode := none
  slot := none
  attempt := 0
  candidate := none
  ignored := 0
  windowExpiry := none
  verifyExpiry := none
  confirmExpiry := none

/-- The pairing result record after every reset (R170; notes/assumptions/30.md). -/
def PairingResult.cleared : PairingResult where
  slot := none
  hid := none
  outcome := .none
  attempts := 0
  ignored := 0
  store := .none

/-- The pairing parameters after POR or RST (R159). -/
def PairingParams.por : PairingParams where
  window := 20000
  confirm := 500
  programRepeat := 10
  verifyWait := 500
  attempts := 2

/-- The Binding Store of a part whose store holds nothing: eight good erased records
(notes/assumptions/7.md), the load running (R172). -/
def Store.fresh : Store where
  records := Vector.ofFn fun k => bindingRecord k none
  load := .loading
  dirty := Vector.replicate 8 false
  inFlight := none
  bad := Vector.replicate 8 false

/-- The Binding Store held in a POR or RST: the records are as last written, a write in flight is cut short
and leaves its record not good, the dirty set is lost (R172, R177). The load sets the bad set; that it is clear before is the
model's choice (notes/assumptions/39.md). -/
def Store.por (st : Store) : Store where
  records :=
    match st.inFlight with
    | some w => st.records.set w.slot .damaged
    | none => st.records
  load := .loading
  dirty := Vector.replicate 8 false
  inFlight := none
  bad := Vector.replicate 8 false

def LatchedFlags.clear : LatchedFlags where
  state := false
  link := false
  pairing := false
  fault := false
  node := false
  batt := false
  overflow := false

def EventMask.off : EventMask where
  state := false
  link := false
  pairing := false
  decision := false
  fault := false
  node := false
  batt := false
  overflow := false

end Sys2Proof.Machine
end

