-- ==== Sys2Proof/Machine/State.lean ====
section
/-! DEFINITION. The state of the NX-208, its outcomes, and the state right after a power-on reset ends. -/

namespace Sys2Proof.Machine

/-- Why a step stops with a fault. The spec gives no event that stops the part, so there is no fault. -/
inductive Fault
  deriving DecidableEq, Repr

/-- Why a command is refused by the model. -/
inductive Refusal where
  /-- The command has no meaning in the model yet. No arm of exec answers it. Safe. -/
  | notModelled (mnemonic : String)
  deriving DecidableEq, Repr

/-- Every piece of state the spec gives the part (INVENTORY.md, "State"), and the queue of commands. -/
structure State where
  /-- The commands waiting, first in first out (the model's own). -/
  pending : List Instr
  /-- POR or RST holds the part in reset (R75). -/
  held : Bool
  /-- Track time (00_scope.md). -/
  now : TrackTime
  -- CIF
  /-- The served mark (R184). -/
  served : Bool
  flags : LatchedFlags
  enables : EventMask
  /-- The response frame of the last command taken (R179). -/
  response : Option Response
  /-- A RESET has been answered and its transaction has not ended (R193). -/
  softResetDue : Bool
  -- HRX
  receiver : Receiver
  unbound : List UnboundEntry
  /-- The watch timers: stopped, or the time of expiry (R34). -/
  watch : Vector (Option TrackTime) 8
  notices : List Notice
  handsetErrors : Nat
  handsetDuplicates : Nat
  -- CTB
  cars : Vector Car 8
  -- RFG
  rail : Rail
  -- TSC
  track : TrackState
  cautionCause : Option CautionCause
  lastWake : Option WakeCause
  railFaultNote : Bool
  /-- The level of RAILFLT: true is asserted. -/
  railflt : Bool
  options : Options
  /-- Auto-caution requests handed in this event and not yet taken (R72, notes/assumptions/14.md). -/
  cautionRequests : List CautionSource
  -- NBI
  nodes : Vector Node 15
  throws : List Throw
  /-- The THROW at the front is being sent on the bus (R105, R106). -/
  throwSending : Bool
  nodeErrors : Nat
  strayReports : Nat
  -- PTR
  positions : Vector Position 8
  -- SAR
  sections : Vector (Option Section) 15
  lfsr : BitVec 16
  decisions : List Decision
  decisionOverflows : Nat
  -- PCT
  pairing : Pairing
  result : PairingResult
  params : PairingParams
  -- BST
  store : Store
  deriving DecidableEq, Repr

/-- Every block at its POR values (R75), with a Binding Store and the level of RAILFLT, which a reset does
not set. -/
def State.por (pending : List Instr) (held : Bool) (railflt : Bool) (store : Store) : State where
  pending := pending
  held := held
  now := 0
  served := false
  flags := LatchedFlags.clear
  enables := EventMask.off
  response := none
  softResetDue := false
  receiver := .hunt
  unbound := []
  watch := Vector.replicate 8 none
  notices := []
  handsetErrors := 0
  handsetDuplicates := 0
  cars := Vector.replicate 8 Car.por
  rail := Rail.por
  track := .standby
  cautionCause := none
  lastWake := none
  railFaultNote := false
  railflt := railflt
  options := Options.por
  cautionRequests := []
  nodes := Vector.replicate 15 Node.por
  throws := []
  throwSending := false
  nodeErrors := 0
  strayReports := 0
  positions := Vector.replicate 8 Position.absent
  sections := Vector.replicate 15 none
  lfsr := 0x0001
  decisions := []
  decisionOverflows := 0
  pairing := Pairing.idle
  result := PairingResult.cleared
  params := PairingParams.por
  store := store

/-- The part at the moment a power-on reset ends: the Binding Store load runs (R75). RAILFLT is deasserted
(notes/assumptions/9.md) and the store holds nothing (notes/assumptions/7.md). -/
def State.reset : State := State.por [] false false Store.fresh

end Sys2Proof.Machine
end

