-- ==== Sys2Proof/Machine/Flags.lean ====
section
/-! DEFINITION. Event flags, ATTN, counters and the response: what the Console Interface holds (chapter 11). -/

namespace Sys2Proof.Machine

/-- The latched events (R187). -/
inductive Event where
  | state | link | pairing | fault | node | batt | overflow
  deriving DecidableEq, Repr

/-- A raise makes the flag present; a raise that finds it present leaves it (R187). -/
def LatchedFlags.raise (f : LatchedFlags) : Event → LatchedFlags
  | .state => { f with state := true }
  | .link => { f with link := true }
  | .pairing => { f with pairing := true }
  | .fault => { f with fault := true }
  | .node => { f with node := true }
  | .batt => { f with batt := true }
  | .overflow => { f with overflow := true }

def State.raise (s : State) (e : Event) : State := { s with flags := s.flags.raise e }

/-- Raise where a condition holds. -/
def State.raiseIf (s : State) (c : Bool) (e : Event) : State := if c then s.raise e else s

/-- The flags that the mask marks made absent; a mark for DECISION has no effect (R189). -/
def LatchedFlags.ack (f : LatchedFlags) (m : EventMask) : LatchedFlags where
  state := f.state && !m.state
  link := f.link && !m.link
  pairing := f.pairing && !m.pairing
  fault := f.fault && !m.fault
  node := f.node && !m.node
  batt := f.batt && !m.batt
  overflow := f.overflow && !m.overflow

/-- The eight flags: DECISION is present while the decision queue holds a record (R188). -/
def State.eventFlags (s : State) : EventMask where
  state := s.flags.state
  link := s.flags.link
  pairing := s.flags.pairing
  decision := !s.decisions.isEmpty
  fault := s.flags.fault
  node := s.flags.node
  batt := s.flags.batt
  overflow := s.flags.overflow

/-- ATTN: some flag is present and its enable is on (R191). -/
def State.attn (s : State) : Bool :=
  (s.eventFlags.state && s.enables.state) || (s.eventFlags.link && s.enables.link)
    || (s.eventFlags.pairing && s.enables.pairing) || (s.eventFlags.decision && s.enables.decision)
    || (s.eventFlags.fault && s.enables.fault) || (s.eventFlags.node && s.enables.node)
    || (s.eventFlags.batt && s.enables.batt) || (s.eventFlags.overflow && s.enables.overflow)

/-- An increment that saturates at 65,535 (00_scope.md "Counters"). -/
def bump (n : Nat) : Nat := min Config.counterMax (n + 1)

/-- The response frame formed in a command's event (R179). -/
def State.respond (s : State) (status : Status) (data : List Byte) : State :=
  { s with response := some { status := status, data := data } }

/-- OK, or OK_CLAMPED where a clamp changed a value (R182). -/
def okOrClamped (clamped : Bool) : Status := if clamped then .okClamped else .ok

/-- A console command: no effect while POR or RST holds the part (R75, R180); NOT_READY until the load
completes (R184); BAD_ARG for a structural error (R182); otherwise carried out by its owner. -/
def State.serve {α : Type} (s : State) (request : Option α) (run : α → State → State) :
    Host.Outcome State Fault Refusal :=
  if s.held then .next s
  else if !s.served then .next (s.respond .notReady [])
  else
    match request with
    | none => .next (s.respond .badArg [])
    | some r => .next (run r s)

/-- An event of the part other than a console command: not taken while POR or RST holds the part (R75). -/
def State.take (s : State) (run : State → State) : Host.Outcome State Fault Refusal :=
  if s.held then .next s else .next (run s)

end Sys2Proof.Machine
end

