-- ==== Sys2Proof/Machine/Time.lean ====
section
/-! DEFINITION. The arithmetic of track time: the signed difference and what is decided by it
(00_scope.md "Track time", R135). -/

namespace Sys2Proof.Machine

/-- b − a modulo 2^32 as a value in −2^31 .. 2^31 − 1. -/
def signedDiff (a b : TrackTime) : Int := (b - a).toInt

/-- Time a is earlier than time b: b − a, so taken, is above 0. Of two times exactly 2^31 ms apart neither is earlier: the
model's choice (notes/assumptions/40.md). -/
def earlier (a b : TrackTime) : Bool := decide (0 < signedDiff a b)

/-- Track time `now` has reached `t`: it is not earlier than `t`; so a time exactly 2^31 ms away is reached, the model's
choice (notes/assumptions/40.md). -/
def reached (now t : TrackTime) : Bool := !earlier now t

/-- The time n ms after t, modulo 2^32 (R135). -/
def after (t : TrackTime) (n : Nat) : TrackTime := t + BitVec.ofNat 32 n

/-- The time n ms before t, modulo 2^32 (R102, R134). -/
def before (t : TrackTime) (n : Nat) : TrackTime := t - BitVec.ofNat 32 n

/-- A timer that runs has reached its expiry; a stopped timer has not. -/
def expired (now : TrackTime) (timer : Option TrackTime) : Bool :=
  match timer with
  | some t => reached now t
  | none => false

/-- t is earlier than the clear time plus g ms; an UNBOUNDED clear time is later than any time (R135, R137). -/
def beforeClear (t : TrackTime) (clear : ClearTime) (g : Nat) : Bool :=
  match clear with
  | .bounded u => earlier t (after u g)
  | .unbounded => true

end Sys2Proof.Machine
end

