-- ==== Sys2Proof/Machine/Ops.lean ====
section
/-! DEFINITION. The named operations over the tables of State: car records, watch timers, registry entries,
position records, section records and the decision queue, and the orders in which slots and addresses are
gone through. -/

namespace Sys2Proof.Machine

/-- Slots 1 to 8 in order. -/
def allSlots : List Slot := [0, 1, 2, 3, 4, 5, 6, 7]

/-- Addresses 1 to 15 in order. -/
def allAddrs : List Addr := [0, 1, 2, 3, 4, 5, 6, 7, 8, 9, 10, 11, 12, 13, 14]

/-! ### Car records -/

def State.car (s : State) (k : Slot) : Car := s.cars[k]

def State.setCar (s : State) (k : Slot) (r : Car) : State := { s with cars := s.cars.set k r }

def State.modifyCar (s : State) (k : Slot) (f : Car → Car) : State := s.setCar k (f (s.car k))

/-- Every car record changed by f. -/
def State.mapCars (s : State) (f : Car → Car) : State := { s with cars := Vector.ofFn fun k : Slot => f s.cars[k] }

/-- Armed set to no (R11). -/
def State.disarm (s : State) (k : Slot) : State := s.modifyCar k fun r => { r with armed := false }

/-! ### Watch timers -/

def State.watchOf (s : State) (k : Slot) : Option TrackTime := s.watch[k]

def State.setWatch (s : State) (k : Slot) (t : Option TrackTime) : State := { s with watch := s.watch.set k t }

/-! ### Registry -/

def State.node (s : State) (a : Addr) : Node := s.nodes[a]

def State.setNode (s : State) (a : Addr) (n : Node) : State := { s with nodes := s.nodes.set a n }

/-! ### Position records -/

def State.position (s : State) (k : Slot) : Position := s.positions[k]

def State.setPosition (s : State) (k : Slot) (p : Position) : State :=
  { s with positions := s.positions.set k p }

/-! ### Section records -/

def State.sectionAt (s : State) (a : Addr) : Option Section := s.sections[a]

def State.setSection (s : State) (a : Addr) (sec : Option Section) : State :=
  { s with sections := s.sections.set a sec }

/-- The section record of an address changed by f, where there is one. -/
def State.modifySection (s : State) (a : Addr) (f : Section → Section) : State :=
  s.setSection a ((s.sectionAt a).map f)

/-- Every section record changed by f. -/
def State.mapSections (s : State) (f : Section → Section) : State :=
  { s with sections := Vector.ofFn fun a : Addr => s.sections[a].map f }

/-- The contest pointer set by mode: slot 1 under ONE, (v mod 8) + 1 under RANDOM, v the LFSR's value
(R110). -/
def State.pointerByMode (s : State) : Slot :=
  match s.options.pointerMode with
  | .one => 0
  | .random => ⟨s.lfsr.toNat % 8, by omega⟩

/-- Some present upstream link of the section names an entry whose status is not LIVE (R115). -/
def State.upstreamSilent (s : State) (sec : Section) : Bool :=
  let dead (l : Option Link) : Bool :=
    match l with
    | some link => decide ((s.node link.node).status ≠ .live)
    | none => false
  dead sec.map.linkA || dead sec.map.linkB

/-- A section is BLIND while OVERFLOW or UPSTREAM_SILENT is present (R115). -/
def State.blind (s : State) (sec : Section) : Bool := sec.overflow || s.upstreamSilent sec

/-! ### The decision queue -/

/-- A record enters the decision queue, or is dropped at a full queue with the counter and OVERFLOW (R155). -/
def State.writeDecision (s : State) (d : Decision) : State :=
  if s.decisions.length < Config.decisionCapacity then { s with decisions := s.decisions ++ [d] }
  else { (s.raise .overflow) with decisionOverflows := bump s.decisionOverflows }

/-- A record of section a at the track time of the event (R154). -/
def State.writeRecord (s : State) (a : Addr) (car : CarRef) (outcome : DecisionOutcome)
    (reason : Option DenyReason) (other : Option CarRef) (coilCap : Bool) : State :=
  s.writeDecision {
    time := s.now, addr := a, car := car, outcome := outcome, reason := reason, other := other,
    coilCap := coilCap }

/-! ### Auto-caution requests -/

/-- An auto-caution request is handed to the Track State Controller (R72). -/
def State.requestCaution (s : State) (c : CautionSource) : State :=
  { s with cautionRequests := s.cautionRequests ++ [c] }

end Sys2Proof.Machine
end

