-- ==== Sys2Proof/Machine/Windows.lean ====
section
/-! DEFINITION. Occupancy windows (chapter 8): travel time, levels, enter, clear and release offsets, overlap,
conflict and the flipper hold. -/

namespace Sys2Proof.Machine

/-- The travel time over d mm at level L, rounded down, at most 65,535 (R128). -/
def travelFloor (d vtop level : Nat) : Nat := min Config.travelMax (d * 255000 / (vtop * level))

/-- The travel time over d mm at level L, rounded up, at most 65,535 (R128). -/
def travelCeil (d vtop level : Nat) : Nat :=
  min Config.travelMax ((d * 255000 + (vtop * level - 1)) / (vtop * level))

/-- The car values and levels that a window is computed with (R129, R130). -/
structure Motion where
  vtop : Nat
  carLength : Nat
  enterLevel : Nat
  clearLevel : Int
  deriving DecidableEq, Repr

/-- The motion of a claim's car at a section: of a slot from its car record and its level at last report, of
an ANON claim the fixed values (R129, R130). A slot without a level is never asked for (log 24). -/
def State.motion (s : State) (sec : Section) (car : CarRef) : Motion :=
  match car with
  | .anon => { vtop := 3000, carLength := 140, enterLevel := 255, clearLevel := sec.map.anonClear }
  | .slot k =>
    let r := s.car k
    let level := (s.position k).level.getD 0
    { vtop := r.vtop
      carLength := r.carLength
      enterLevel := min 255 (level + r.accelMargin)
      clearLevel := (level : Int) - (r.decelMargin : Int) }

/-- The enter offset over the enter distance (R131). -/
def Motion.enterOffset (m : Motion) (distance : Nat) : Nat :=
  if m.enterLevel = 0 then 0
  else if distance = 0 then 0
  else travelFloor distance m.vtop m.enterLevel

/-- The offset over a distance at the clear level, rounded up; none where the time is UNBOUNDED
(R132, R139). -/
def Motion.clearOffset (m : Motion) (distance : Nat) : Option Nat :=
  if m.clearLevel ≤ 0 then none
  else
    let q := travelCeil distance m.vtop m.clearLevel.toNat
    if Config.travelMax ≤ q then none else some q

/-- The time an offset after s, UNBOUNDED where there is no offset. -/
def clearAfter (sense : TrackTime) (offset : Option Nat) : ClearTime :=
  match offset with
  | some n => .bounded (after sense n)
  | none => .unbounded

/-! ### Kinds and lanes -/

def Lane.other : Lane → Lane
  | .a => .b
  | .b => .a

def Lane.straight : Lane → ClaimKind
  | .a => .straightA
  | .b => .straightB

/-- CROSS_xy of entry lane x. -/
def Lane.cross : Lane → ClaimKind
  | .a => .crossAB
  | .b => .crossBA

/-- The lane a claim enters the section on. -/
def ClaimKind.entryLane : ClaimKind → Lane
  | .straightA => .a
  | .straightB => .b
  | .crossAB => .a
  | .crossBA => .b

/-- The path of a kind through the section (R132). -/
def SectionMap.path (m : SectionMap) : ClaimKind → Nat
  | .straightA => m.straight
  | .straightB => m.straight
  | .crossAB => m.crossing
  | .crossBA => m.crossing

/-- The clear time of a claim over an enter distance, its kind's path and the car length (R132). -/
def Motion.clearTime (m : Motion) (map : SectionMap) (sense : TrackTime) (enterDistance : Nat)
    (kind : ClaimKind) : ClearTime :=
  clearAfter sense (m.clearOffset (enterDistance + map.path kind + m.carLength))

/-- A clear time set in a claim, with the lapse time (R113, R132). -/
def Claim.withClear (c : Claim) (map : SectionMap) (clear : ClearTime) : Claim :=
  { c with
    clear := clear
    lapse :=
      match clear with
      | .bounded t => some (after t map.exitSlack)
      | .unbounded => none }

/-- A claim STRAIGHT on a lane with the window computed from a sense time over an enter distance
(R122, R124, R125, R131 to R133). -/
def straightClaim (map : SectionMap) (m : Motion) (car : CarRef) (lane : Lane) (origin : ClaimOrigin)
    (state : ClaimState) (sense : TrackTime) (enterDistance : Nat) : Claim :=
  Claim.withClear
    { car := car
      kind := lane.straight
      origin := origin
      state := state
      sense := sense
      enter := after sense (m.enterOffset enterDistance)
      clear := .unbounded
      decideTime := none
      exitLane := lane
      lapse := none }
    map (m.clearTime map sense enterDistance lane.straight)

/-! ### Overlap and conflict -/

/-- Two claims of one section overlap under the guard (R137). -/
def overlaps (guard : Nat) (a b : Claim) : Bool :=
  beforeClear a.enter b.clear guard && beforeClear b.enter a.clear guard

/-- Kinds whose paths cannot share the crossing area (R138). -/
def ClaimKind.related : ClaimKind → ClaimKind → Bool
  | .crossAB, .straightB => true
  | .crossAB, .crossBA => true
  | .crossBA, .straightA => true
  | .crossBA, .crossAB => true
  | .straightA, .crossBA => true
  | .straightB, .crossAB => true
  | _, _ => false

/-- Two claims are in conflict (R138). -/
def conflicts (guard : Nat) (a b : Claim) : Bool := a.kind.related b.kind && overlaps guard a b

/-- The conflict set of r: the other claims of the section in conflict with it, in list order (R148). -/
def Section.conflictSet (sec : Section) (r : Claim) : List Claim :=
  sec.claims.filter fun c => (c.car != r.car) && conflicts sec.map.guard r c

/-! ### Release and hold -/

/-- The release time of a granted crossing (R139). -/
def Motion.releaseTime (m : Motion) (map : SectionMap) (sense : TrackTime) : ClearTime :=
  clearAfter sense (m.clearOffset (map.approach + m.carLength))

/-- The hold and the COIL_CAP mark (R140). -/
def flipperHold (map : SectionMap) (release : ClearTime) (now : TrackTime) : Nat × Bool :=
  let cap : Int := (map.coilLimit : Int) - (map.pullIn : Int)
  match release with
  | .unbounded => (cap.toNat, true)
  | .bounded t =>
    let h : Int := signedDiff now t - (map.pullIn : Int)
    if h < 0 then (0, false)
    else if cap < h then (cap.toNat, true)
    else (h.toNat, false)

end Sys2Proof.Machine
end

