-- ==== Sys2Proof/Machine/Arbiter.lean ====
section
/-! DEFINITION. The Section Arbiter and the Position Tracker: claim lists (R112 to R117), lapses, denials,
grants and decisions (chapter 9), and the processing of a sighting (R119 to R125). -/

namespace Sys2Proof.Machine

/-! ### Claim lists -/

/-- The claim of car slot k in a section's list. -/
def Section.claimOf (sec : Section) (k : Slot) : Option Claim := sec.claims.find? fun c => c.car == .slot k

/-- A claim placed by its enter time, behind claims of equal enter time (R112). -/
def insertClaim (c : Claim) : List Claim → List Claim
  | [] => [c]
  | h :: t => if earlier c.enter h.enter then c :: h :: t else h :: insertClaim c t

/-- Slot k's claim replaced in its place. -/
def Section.putClaim (sec : Section) (k : Slot) (new : Claim) : Section :=
  { sec with claims := sec.claims.map fun c => if c.car = .slot k then new else c }

/-- Slot k's claim taken out and `new` placed by its enter time; the list's length does not grow (R112). -/
def Section.placeAgain (sec : Section) (k : Slot) (new : Claim) : Section :=
  { sec with claims := insertClaim new (sec.claims.filter fun c => c.car != .slot k) }

/-- Some claim is PENDING or GRANTED (R116, R117). -/
def Section.busy (sec : Section) : Bool :=
  sec.claims.any fun c => decide (c.state = .pending) || decide (c.state = .granted)

/-- A CLOSING section with no PENDING or GRANTED claim becomes CLOSED (R117). -/
def Section.finishClose (sec : Section) : Section :=
  if sec.admin = .closing ∧ sec.busy = false then { sec with admin := .closed } else sec

/-- The list after a removal: an empty list removes OVERFLOW (R112, R114), and a close may complete (R117). -/
def Section.removeTo (sec : Section) (claims : List Claim) : Section :=
  let sec := { sec with claims := claims }
  let sec := if claims.isEmpty then { sec with overflow := false, lastOverflow := none } else sec
  sec.finishClose

/-- Slot k's claim removed from the list. -/
def Section.removeSlot (sec : Section) (k : Slot) : Section :=
  sec.removeTo (sec.claims.filter fun c => c.car != .slot k)

/-- A claim that a full list does not store (R114). -/
def Section.overflowed (sec : Section) (now : TrackTime) : Section :=
  { sec with overflow := true, lastOverflow := some now, overflowCount := bump sec.overflowCount }

/-- A claim is added: placed by its enter time, or not stored where the list holds 6 claims (R112, R114). -/
def Section.addClaim (sec : Section) (now : TrackTime) (c : Claim) : Section :=
  if sec.claims.length < Config.claimCapacity then { sec with claims := insertClaim c sec.claims }
  else sec.overflowed now

/-- The list has room for one more claim. -/
def Section.hasRoom (sec : Section) : Bool := decide (sec.claims.length < Config.claimCapacity)

/-! ### Denials -/

/-- A DENY record and the retry mode: DROP sets armed to no (R145, R146). -/
def State.recordDenial (s : State) (a : Addr) (k : Slot) (reason : DenyReason) (other : Option CarRef) : State :=
  let s := s.writeRecord a (.slot k) .deny (some reason) other false
  match (s.car k).retryMode with
  | .drop => s.disarm k
  | .keep => s

/-- One LATE_CONFLICT record and its auto-caution request (R153). -/
def State.recordLateConflict (s : State) (a : Addr) (car : CarRef) (granted : Claim) : State :=
  (s.writeRecord a car .lateConflict none (some granted.car) false).requestCaution .lateConflict

/-- The late-conflict test of a claim against the GRANTED claims of its section, in list order (R153). -/
def State.lateConflictTest (s : State) (a : Addr) (k : Claim) : State :=
  match s.sectionAt a with
  | none => s
  | some sec =>
    (sec.claims.filter fun g => decide (g.state = .granted) && conflicts sec.map.guard g k).foldl
      (fun s g => s.recordLateConflict a k.car g) s

/-- The claim after a denial that keeps it: ENTERED and STRAIGHT_x, the clear time over the straight path
(R145, R133). -/
def State.deniedClaim (s : State) (sec : Section) (c : Claim) : Claim :=
  let kind := c.kind.entryLane.straight
  Claim.withClear { c with state := .entered, kind := kind, decideTime := none } sec.map
    ((s.motion sec c.car).clearTime sec.map c.sense sec.map.approach kind)

/-- A denial of slot k's request whose claim stays in the list (R145). -/
def State.deny (s : State) (a : Addr) (k : Slot) (reason : DenyReason) (other : Option CarRef) : State :=
  match s.sectionAt a with
  | none => s
  | some sec =>
    match sec.claimOf k with
    | none => s
    | some c =>
      let new := s.deniedClaim sec c
      let s := s.setSection a (some (sec.putClaim k new))
      let s := s.recordDenial a k reason other
      (s.lateConflictTest a new).modifySection a Section.finishClose

/-- The slots of the PENDING requests of a section, in list order. -/
def Section.pendingSlots (sec : Section) : List Slot :=
  sec.claims.filterMap fun c =>
    match c.state, c.car with
    | .pending, .slot k => some k
    | _, _ => none

/-- Every PENDING request of a section denied, in list order (R116, R151): for CLOSE_SECTION NOW and a FAULT report the
order is the model's choice (notes/assumptions/35.md). -/
def State.denySection (s : State) (reason : DenyReason) (a : Addr) : State :=
  match s.sectionAt a with
  | none => s
  | some sec => sec.pendingSlots.foldl (fun s k => s.deny a k reason none) s

/-- A crossing may be granted: RUN, or CAUTION with caution lane changes ALLOW (R143, R147). -/
def State.crossingAllowed (s : State) : Bool :=
  match s.track with
  | .run => true
  | .caution => decide (s.options.cautionLanes = .allow)
  | _ => false

/-- Where no crossing may be granted, every PENDING request of every section is denied with STATE, in the
order of addresses and lists (R151). The auto-caution requests that these denials hand find a state other than
RUN and are ignored (R72). -/
def State.denyForState (s : State) : State :=
  if s.crossingAllowed then s
  else { (allAddrs.foldl (fun s a => s.denySection .state a) s) with cautionRequests := s.cautionRequests }

/-! ### Grant and decision -/

/-- The car's expected lane is set at a grant (R147, R118). -/
def State.expectLane (s : State) (k : Slot) (lane : Lane) : State :=
  s.setPosition k { s.position k with expectedLane := some lane }

/-- The THROW of a grant and its COIL_CAP mark (R140, R141). -/
def State.throwFor (s : State) (a : Addr) (k : Slot) (sec : Section) (c : Claim) : Throw × Bool :=
  let release := (s.motion sec c.car).releaseTime sec.map c.sense
  let (hold, cap) := flipperHold sec.map release s.now
  ({ dest := a, lane := c.kind.entryLane, car := k, pullIn := sec.map.pullIn, holdDuty := sec.map.holdDuty,
     hold := hold }, cap)

/-- In LATCH mode a grant sets armed to no (R11, R147). -/
def State.consumeArm (s : State) (k : Slot) : State :=
  match (s.car k).laneMode with
  | .latch => s.disarm k
  | .hold => s

/-- A decision that gives GRANT: the THROW is queued and the claim GRANTED, or the request is denied with
BUS_BUSY (R147, R105). -/
def State.grant (s : State) (a : Addr) (k : Slot) : State :=
  match s.sectionAt a with
  | none => s
  | some sec =>
    match sec.claimOf k with
    | none => s
    | some c =>
      if s.throws.length < Config.throwCapacity then
        let (throw, cap) := s.throwFor a k sec c
        let lane := c.kind.entryLane.other
        let s := { s with throws := s.throws ++ [throw] }
        let s := s.setSection a (some (sec.putClaim k
          { c with state := .granted, exitLane := lane, decideTime := none }))
        let s := (s.expectLane k lane).consumeArm k
        s.writeRecord a (.slot k) .grant none none cap
      else s.deny a k .busBusy none

/-- The slots from pointer p on: p, p + 1, .. 8, 1, .. p − 1 (R149). -/
def searchFrom (p : Slot) : List Slot := allSlots.map fun i => p + i

/-- A competitor is eligible when its own conflict set holds PENDING claims alone (R149). -/
def Section.eligible (sec : Section) (c : Claim) : Bool :=
  (sec.conflictSet c).all fun d => decide (d.state = .pending)

/-- The contestants of r's decision, in the order of the search: r and every eligible competitor (R149). -/
def Section.contestants (sec : Section) (r : Claim) : List Slot :=
  let eligible := (sec.conflictSet r).filter sec.eligible
  (searchFrom sec.pointer).filter fun j =>
    decide (r.car = .slot j) || eligible.any fun c => decide (c.car = .slot j)

/-- The contest pointer moves past the winner (R149). -/
def State.advancePointer (s : State) (a : Addr) (winner : Slot) : State :=
  s.modifySection a fun sec => { sec with pointer := winner + 1 }

/-- The contest (R149): a lone contestant is granted; otherwise the first in the search wins, and every other
contestant is denied with CONTEST_LOST. -/
def State.contest (s : State) (a : Addr) (k : Slot) (contestants : List Slot) : State :=
  match contestants with
  | [] => s.grant a k
  | [_] => s.grant a k
  | w :: losers =>
    losers.foldl (fun s j => s.deny a j .contestLost (some (.slot w))) ((s.advancePointer a w).grant a w)

/-- A decision is taken for slot k's PENDING request at section a (R148). A claim no longer PENDING is left
(R144). -/
def State.decideRequest (s : State) (a : Addr) (k : Slot) : State :=
  match s.sectionAt a with
  | none => s
  | some sec =>
    match sec.claimOf k with
    | none => s
    | some r =>
      if r.state ≠ .pending then s
      else if !s.crossingAllowed then s.deny a k .state none
      else if sec.admin ≠ .opened then s.deny a k .closed none
      else if s.blind sec then s.deny a k .blind none
      else
        match (sec.conflictSet r).find? fun c => decide (c.state ≠ .pending) with
        | some c => s.deny a k .conflict (some c.car)
        | none =>
          if (sec.conflictSet r).isEmpty then s.grant a k
          else s.contest a k (sec.contestants r)

/-! ### Requests -/

/-- The first immediate refusal of R143 that holds for a new request. -/
def State.refusal (s : State) (sec : Section) (c : Claim) : Option DenyReason :=
  if !s.crossingAllowed then some .state
  else if sec.admin ≠ .opened then some .closed
  else if s.blind sec then some .blind
  else if c.clear = .unbounded then some .tooSlow
  else if reached s.now c.enter then some .tooLate
  else none

/-- An armed car's entered claim becomes a crossing request: refused at once, PENDING, or PENDING and decided in
this step (R142, R143, R134). -/
def State.makeRequest (s : State) (a : Addr) (k : Slot) : State :=
  match s.sectionAt a with
  | none => s
  | some sec =>
    match sec.claimOf k with
    | none => s
    | some c =>
      let kind := c.kind.entryLane.cross
      let r := Claim.withClear { c with kind := kind } sec.map
        ((s.motion sec c.car).clearTime sec.map c.sense sec.map.approach kind)
      let s := s.setSection a (some (sec.putClaim k r))
      match s.refusal sec r with
      | some reason => s.deny a k reason none
      | none =>
        let due := before r.enter sec.map.lead
        let s := s.setSection a (some (sec.putClaim k { r with state := .pending, decideTime := some due }))
        if reached s.now due then s.decideRequest a k else s

/-! ### Lapse -/

/-- The lapse of the claim at a place of a section's list (R113, R146). -/
def State.lapseClaim (s : State) (a : Addr) (place : Nat) : State :=
  match s.sectionAt a with
  | none => s
  | some sec =>
    match sec.claims[place]? with
    | none => s
    | some c =>
      let s :=
        match c.state, c.car with
        | .pending, .slot k => s.recordDenial a k .tooLate none
        | _, _ => s
      let s := s.setSection a (some
        { sec.removeTo (sec.claims.eraseIdx place) with lapseCount := bump sec.lapseCount })
      if c.state = .predicted then s
      else (s.writeRecord a c.car .lapse none none false).requestCaution .lapse

/-! ### Closing a section -/

/-- CLOSE_SECTION with NOW, and the close of a FAULT report (R116, R104). -/
def State.closeNow (s : State) (a : Addr) : State :=
  match s.sectionAt a with
  | none => s
  | some sec =>
    if sec.admin = .closed then s
    else (s.denySection .closed a).modifySection a fun sec =>
      { sec with admin := if sec.busy then .closing else .closed }

/-- CLOSE_SECTION with HOLD (R116). -/
def Section.closeHold (sec : Section) : Section :=
  match sec.admin with
  | .opened => { sec with admin := if sec.busy then .closing else .closed }
  | .closing => sec
  | .closed => sec

/-! ### Teardown -/

/-- The section record at a STANDBY entry (R108, R126). -/
def Section.standby (pointer : Slot) (sec : Section) : Section :=
  { sec with
    admin := if sec.admin = .closing then .closed else sec.admin
    overflow := false
    lastOverflow := none
    pointer := pointer
    claims := [] }

/-- The Section Arbiter follows a change of track state (R63, R126, R151). -/
def State.arbiterFollows (s : State) : State :=
  let s := s.denyForState
  if s.track = .standby then { (s.mapSections (Section.standby s.pointerByMode)) with decisions := [] } else s

/-- Every PENDING request of a section whose record goes is denied with CLOSED, the claims kept out of it
(R126, R146), in list order, the model's choice (notes/assumptions/36.md); then the record goes. -/
def State.dropSection (s : State) (a : Addr) : State :=
  match s.sectionAt a with
  | none => s
  | some sec =>
    (sec.pendingSlots.foldl (fun s k => s.recordDenial a k .closed none) s).setSection a none

/-! ### Sightings -/

/-- A sighting handed by the Node Bus Interface (R102). -/
structure Sighting where
  node : Addr
  role : Role
  sensor : Sensor
  lane : Lane
  car : Option Slot
  sense : TrackTime
  deriving DecidableEq, Repr

/-- The sighting is at a SECTION node's exit sensor. -/
def Sighting.isExit (x : Sighting) : Bool := decide (x.role = .sect) && decide (x.sensor = .exit)

/-- The sighting is at a SECTION node's entry sensor. -/
def Sighting.isEntry (x : Sighting) : Bool := decide (x.role = .sect) && decide (x.sensor = .entry)

/-- A sighting earlier than the car's last seen time (R119). -/
def Position.stale (p : Position) (x : Sighting) : Bool :=
  match p.lastSeen with
  | some t => earlier x.sense t
  | none => false

/-- The same sensor has seen the same car less than 1000 ms before (R119). -/
def Position.repeats (p : Position) (x : Sighting) : Bool :=
  match p.lastSeen with
  | some t =>
    decide (p.lastNode = some x.node) && decide (p.lastSensor = some x.sensor)
      && decide (p.lastLane = some x.lane) && decide (signedDiff t x.sense < Config.repeatInterval)
  | none => false

/-- The record of a claim whose car is seen on a lane other than its expected exit lane (R120, R121). -/
def State.laneTest (s : State) (a : Addr) (k : Slot) (c : Claim) (lane : Lane) : State :=
  if c.exitLane = lane then s
  else s.writeRecord a (.slot k) (if c.state = .granted then .missedThrow else .unexpectedCross) none none false

/-- A PENDING request whose claim leaves the list is denied with TOO_LATE before any other record for the claim
(R146). -/
def State.denyLeaving (s : State) (a : Addr) (k : Slot) (c : Claim) : State :=
  if c.state = .pending then s.recordDenial a k .tooLate none else s

/-- Inference close at one section: the car's claim in state ENTERED, PENDING or GRANTED is removed (R120). -/
def State.closeByInference (s : State) (k : Slot) (lane : Lane) (a : Addr) : State :=
  match s.sectionAt a with
  | none => s
  | some sec =>
    match sec.claimOf k with
    | none => s
    | some c =>
      if c.state = .predicted then s
      else ((s.denyLeaving a k c).laneTest a k c lane).modifySection a fun sec => sec.removeSlot k

/-- Inference close (R120): every section other than the sighting's node, in the order of addresses. -/
def State.inferenceClose (s : State) (x : Sighting) (k : Slot) : State :=
  (allAddrs.filter fun a => a != x.node).foldl (fun s a => s.closeByInference k x.lane a) s

/-- The section at an address holds a GRANTED claim of slot k. -/
def State.holdsGranted (s : State) (k : Slot) (a : Addr) : Bool :=
  match s.sectionAt a with
  | none => false
  | some sec =>
    match sec.claimOf k with
    | none => false
    | some c => decide (c.state = .granted)

/-- A GRANTED claim of slot k is compared in this sighting, by the inference close or the exit test (R120,
R121). -/
def State.comparesGranted (s : State) (x : Sighting) (k : Slot) : Bool :=
  (allAddrs.any fun a => (a != x.node) && s.holdsGranted k a) || (x.isExit && s.holdsGranted k x.node)

/-- The lane test of an EXIT at a SECTION node (R121). The TOO_LATE denial of a PENDING claim (R123) is written
before it (R146, notes/assumptions/31.md). -/
def State.exitLaneTest (s : State) (x : Sighting) (k : Slot) : State :=
  match s.sectionAt x.node with
  | none => s
  | some sec =>
    match sec.claimOf k with
    | none => s
    | some c => (s.denyLeaving x.node k c).laneTest x.node k c x.lane

/-- The expected-lane test (R121): a granted car not compared in this sighting and seen on another lane. -/
def State.expectedLaneTest (s : State) (x : Sighting) (k : Slot) (compared : Bool) : State :=
  match (s.position k).expectedLane, (s.position k).lastNode with
  | some lane, some a =>
    if compared = false ∧ lane ≠ x.lane then s.writeRecord a (.slot k) .missedThrow none none false else s
  | _, _ => s

/-- The position record takes the sighting (R121). -/
def State.seen (s : State) (x : Sighting) (k : Slot) : State :=
  s.setPosition k {
    lastNode := some x.node, lastLane := some x.lane, lastSensor := some x.sensor,
    lastSeen := some x.sense, level := some (s.car k).output, expectedLane := none }

/-- Position update (R121). -/
def State.updatePosition (s : State) (x : Sighting) (k : Slot) (compared : Bool) : State :=
  let s := if x.isExit then s.exitLaneTest x k else s
  (s.expectedLaneTest x k compared).seen x k

/-- The car's claim at the section after the entry, before the arm is read (R122): a claim of the car in a
state other than PREDICTED is first removed as lapsed. -/
def State.enterClaim (s : State) (x : Sighting) (k : Slot) : State :=
  match s.sectionAt x.node with
  | none => s
  | some sec =>
    let fresh (sec : Section) (origin : ClaimOrigin) : Claim :=
      straightClaim sec.map (s.motion sec (.slot k)) (.slot k) x.lane origin .entered x.sense sec.map.approach
    match sec.claimOf k with
    | none => s.setSection x.node (some (sec.addClaim s.now (fresh sec .sensed)))
    | some c =>
      if c.state = .predicted then s.setSection x.node (some (sec.placeAgain k (fresh sec c.origin)))
      else
        let place := sec.claims.findIdx fun c => c.car == .slot k
        (s.lapseClaim x.node place).modifySection x.node fun sec => sec.addClaim s.now (fresh sec .sensed)

/-- The arm is read (R122): a stored claim of an armed car becomes a request, an armed car whose claim was not
stored is refused with BLIND, and a stored claim of a car not armed is tested for late conflict (R153). -/
def State.readArm (s : State) (a : Addr) (k : Slot) : State :=
  match s.sectionAt a with
  | none => s
  | some sec =>
    match sec.claimOf k with
    | some c => if (s.car k).armed then s.makeRequest a k else s.lateConflictTest a c
    | none => if (s.car k).armed then s.recordDenial a k .blind none else s

/-- Entry (R122). -/
def State.enter (s : State) (x : Sighting) (k : Slot) : State := (s.enterClaim x k).readArm x.node k

/-- Exit (R123): the car's claim at the section is removed. -/
def State.leave (s : State) (x : Sighting) (k : Slot) : State :=
  match s.sectionAt x.node with
  | none => s
  | some sec =>
    match sec.claimOf k with
    | none => s
    | some _ => s.setSection x.node (some (sec.removeSlot k))

/-- The upstream link of a lane. -/
def SectionMap.link (m : SectionMap) : Lane → Option Link
  | .a => m.linkA
  | .b => m.linkB

/-- The lookahead claim of one section whose link for the lane names the node (R124): a claim of the car is
replaced, otherwise the new one is added; a stored claim is tested for late conflict (R153). -/
def State.lookaheadAt (s : State) (x : Sighting) (k : Slot) (a : Addr) : State :=
  match s.sectionAt a with
  | none => s
  | some sec =>
    match sec.map.link x.lane with
    | none => s
    | some link =>
      if link.node ≠ x.node then s
      else
        let c := straightClaim sec.map (s.motion sec (.slot k)) (.slot k) x.lane .lookahead .predicted x.sense
          (link.distance + sec.map.approach)
        match sec.claimOf k with
        | some _ => (s.setSection a (some (sec.placeAgain k c))).lateConflictTest a c
        | none =>
          let s' := s.setSection a (some (sec.addClaim s.now c))
          if sec.hasRoom then s'.lateConflictTest a c else s'

/-- Lookahead (R124): every linked section in the order of addresses. -/
def State.lookahead (s : State) (x : Sighting) (k : Slot) : State :=
  allAddrs.foldl (fun s a => s.lookaheadAt x k a) s

/-- An ANON claim of a sighting (R125). -/
def State.anonClaim (s : State) (sec : Section) (x : Sighting) : Claim :=
  straightClaim sec.map (s.motion sec .anon) .anon x.lane .sensed .entered x.sense sec.map.approach

/-- The first ANON claim on a lane, the one an ANON exit removes (R125). -/
def isAnonOn (lane : Lane) (c : Claim) : Bool := decide (c.car = .anon) && decide (c.kind = lane.straight)

/-- A sighting of an UNREAD car (R125). -/
def State.anonSighting (s : State) (x : Sighting) : State :=
  match s.sectionAt x.node with
  | none => s
  | some sec =>
    if x.isEntry then
      let s' := s.setSection x.node (some (sec.addClaim s.now (s.anonClaim sec x)))
      if sec.hasRoom then s'.lateConflictTest x.node (s.anonClaim sec x) else s'
    else if x.isExit ∧ sec.claims.any (isAnonOn x.lane) then
      s.setSection x.node (some (sec.removeTo (sec.claims.eraseP (isAnonOn x.lane))))
    else s

/-- A sighting of car slot k that is neither stale nor a repeat, by the steps of R119. -/
def State.carSighting (s : State) (x : Sighting) (k : Slot) : State :=
  let compared := s.comparesGranted x k
  let s := (s.inferenceClose x k).updatePosition x k compared
  if x.isEntry then s.enter x k
  else if x.isExit then (s.leave x k).lookahead x k
  else s.lookahead x k

/-- A sighting (R119, R125). -/
def State.sighting (s : State) (x : Sighting) : State :=
  match x.car with
  | none => s.anonSighting x
  | some k =>
    if (s.position k).stale x || (s.position k).repeats x then s else s.carSighting x k

end Sys2Proof.Machine
end

