-- ==== Sys2Proof/Machine/Drive.lean ====
section
/-! DEFINITION. The Drive Unit (chapter 3): target level and brake request, limit cut, slew step, and the
values of a car's rail word. -/

namespace Sys2Proof.Machine

/-- The normalised throttle of a raw throttle (R44). -/
def normalise (lo hi raw : Nat) : Nat :=
  if raw ≤ lo then 0
  else if hi ≤ raw then 255
  else (raw - lo) * 255 / (hi - lo)

/-- Point i of a curve. -/
def curvePoint (curve : Curve) (i : Nat) : Nat := if h : i < 9 then curve[i] else 0

/-- The curve level of a normalised throttle: a straight line between two points, the step truncated toward
zero (R45). -/
def curveLevel (c : Curve) (t : Nat) : Nat :=
  let i := t / 32
  let f := t % 32
  ((curvePoint c i : Int)
    + Int.tdiv (((curvePoint c (i + 1) : Int) - (curvePoint c i : Int)) * (f : Int)) 32).toNat

/-- The curve the track state selects (R46); outside CAUTION the race curve, which only RUN uses. -/
def Car.curveFor (r : Car) (t : TrackState) : Curve :=
  match t with
  | .caution => r.cautionCurve
  | _ => r.raceCurve

/-- The handset path, row 5 of R43: normalisation, curve, caps (R44 to R48). -/
def Car.handsetTarget (r : Car) (t : TrackState) : Nat :=
  let capped := min (curveLevel (r.curveFor t) (normalise r.calLo r.calHi r.inputs.thr)) r.speedLimit
  match r.link with
  | .fade => min capped r.fadeCap
  | _ => capped

/-- The target level and brake request by the rows of R43. -/
def Car.targetFor (r : Car) (t : TrackState) : Nat × Bool :=
  match t with
  | .standby => (0, true)
  | .settle => (0, true)
  | .halt => (0, true)
  | _ =>
    match r.consoleDrive with
    | some level => (min level r.speedLimit, false)
    | none =>
      match r.link with
      | .live => if r.inputs.brake then (0, true) else (r.handsetTarget t, false)
      | .fade => if r.inputs.brake then (0, true) else (r.handsetTarget t, false)
      | _ => (0, true)

/-- The limit cut (R49): the output level within the speed limit, and in FADE without console drive within
the fade cap. -/
def Car.limitCut (r : Car) : Nat :=
  let o := min r.output r.speedLimit
  if r.link = .fade ∧ r.consoleDrive = none then min o r.fadeCap else o

/-- A recomputation (R41 to R43, R49). -/
def Car.recompute (t : TrackState) (r : Car) : Car :=
  { r with target := (r.targetFor t).1, brakeRequest := (r.targetFor t).2, output := r.limitCut }

/-- A change of a car record is handed to the Drive Unit. -/
def State.recompute (s : State) (k : Slot) : State := s.modifyCar k (Car.recompute s.track)

/-- The forced stop sets the output level to 0 (R53). -/
def Car.forcedStop (r : Car) : Car := { r with output := 0 }

/-- Track states in which every car is stopped (R53, R62). -/
def TrackState.stopped : TrackState → Bool
  | .standby => true
  | .settle => true
  | .halt => true
  | .run => false
  | .caution => false

/-- The Drive Unit follows a change of track state: eight recomputations, and the forced stop at entry to
STANDBY, SETTLE or HALT (R41, R53). -/
def State.driveFollows (s : State) : State :=
  s.mapCars fun r =>
    if s.track.stopped then (r.recompute s.track).forcedStop else r.recompute s.track

/-- The slew step of a car at a frame start (R54). -/
def Car.slew (t : TrackState) (r : Car) : Car :=
  if t.stopped then { r with output := 0 }
  else if r.output < r.target then { r with output := min r.target (r.output + r.accelStep) }
  else { r with output := max r.target (r.output - r.decelStep) }

/-- The speed code (R57). -/
def Car.speedCode (r : Car) : Nat := r.output / 8

/-- The brake flag: brake request yes and speed code 0 (R58). -/
def Car.brakeFlag (r : Car) : Bool := r.brakeRequest && decide (r.speedCode = 0)

/-- The car word of a frame whose start is taken in track state t: blanked in SETTLE and HALT (R82), else
formed from the record (R57 to R59). -/
def Car.railWord (t : TrackState) (r : Car) : Byte :=
  if t.stopped then blankWord else carWord r.speedCode r.brakeFlag r.armed

end Sys2Proof.Machine
end

