-- ==== Sys2Proof/Machine/Binding.lean ====
section
/-! DEFINITION. Bindings: the values a change of binding gives the car record (R3), the watch timer's
restart (R34), and the Binding Store's requests, writes and completions (R173, R175, R176). -/

namespace Sys2Proof.Machine

/-- A pending watch timeout, if present, becomes the watch timeout (R8). -/
def Car.applyPendingWatch (r : Car) : Car :=
  { r with watchTimeout := r.pendingWatch.getD r.watchTimeout, pendingWatch := none }

/-- A restart of the slot's watch timer (R34). -/
def State.restartWatch (s : State) (k : Slot) : State :=
  let s := s.modifyCar k Car.applyPendingWatch
  s.setWatch k (some (after s.now (s.car k).watchTimeout))

/-- The values the record takes at a change of binding (R3). -/
def Car.rebind (b : Option Hid) (r : Car) : Car :=
  { r.applyPendingWatch with
    binding := b
    link := quietLink b
    lastSeq := none
    inputs := Inputs.initial
    lowBattery := false
    fadeCap := 255
    armed := false }

/-- A HID that becomes bound leaves the unbound handset list (R32). -/
def leaveUnbound (l : List UnboundEntry) (b : Option Hid) : List UnboundEntry :=
  match b with
  | some h => l.filter fun e => e.hid != h
  | none => l

/-- A change of slot k's binding: the record's values, the watch timer stopped, the target recomputed, the
HID out of the unbound list (R3, R32, R41). -/
def State.changeBinding (s : State) (k : Slot) (b : Option Hid) : State :=
  let s := { ((s.modifyCar k (Car.rebind b)).setWatch k none) with unbound := leaveUnbound s.unbound b }
  s.recompute k

/-! ### Binding Store -/

def State.setStoreStatus (s : State) (k : Slot) (st : StoreStatus) : State :=
  s.modifyCar k fun r => { r with storeStatus := st }

/-- The lowest slot whose dirty flag is set (R175). -/
def Store.lowestDirty (st : Store) : Option Slot := allSlots.find? fun k => st.dirty[k]

/-- Where no write is in flight, the write of the lowest dirty slot begins with the binding its car record
holds now (R175). -/
def State.beginWrite (s : State) : State :=
  match s.store.inFlight, s.store.lowestDirty with
  | none, some j =>
    { s with store := { s.store with
        dirty := s.store.dirty.set j false, inFlight := some { slot := j, hid := (s.car j).binding } } }
  | _, _ => s

/-- A store write request for slot k (R173, R15). -/
def State.requestWrite (s : State) (k : Slot) : State :=
  let s := s.setStoreStatus k .pending
  ({ s with store := { s.store with dirty := s.store.dirty.set k true } }).beginWrite

/-- The record, the bad flag and the write in flight after a completion of the write w (R176). -/
def Store.complete (st : Store) (w : StoreWrite) (success : Bool) : Store :=
  { st with
    records := st.records.set w.slot (if success then bindingRecord w.slot w.hid else .damaged)
    bad := st.bad.set w.slot (!success)
    inFlight := none }

/-- The store status a completion gives the slot (R15, R176). -/
def completionStatus (success dirty : Bool) : StoreStatus :=
  if success then (if dirty then .pending else .saved) else .unsaved

/-- What a completion for slot j makes of the pairing result (R170, R176): it changes where it refers to j and
is PENDING, unless the write succeeded with the dirty flag set again. -/
def PairingResult.complete (r : PairingResult) (j : Slot) (success dirty : Bool) : PairingResult :=
  if r.slot = some j ∧ r.store = .pending then
    if success then (if dirty then r else { r with store := .saved }) else { r with store := .unsaved }
  else r

/-- Completion of the write w in flight (R176). -/
def State.completeWrite (s : State) (w : StoreWrite) (success : Bool) : State :=
  let dirty := s.store.dirty[w.slot]
  let s := { s with
    store := s.store.complete w success
    result := s.result.complete w.slot success dirty }
  let s := s.setStoreStatus w.slot (completionStatus success dirty)
  (s.raiseIf (!success) .fault).beginWrite

/-- What the load gives the slots in order, `taken` the HIDs of lower slots' good records (R174): the binding,
and whether the record is found bad. -/
def loadSlots (records : Vector StoredRecord 8) : List Slot → List Hid → List (Slot × Option Hid × Bool)
  | [], _ => []
  | k :: rest, taken =>
    match readRecord k records[k] with
    | none => (k, none, true) :: loadSlots records rest taken
    | some none => (k, none, false) :: loadSlots records rest taken
    | some (some h) =>
      if taken.contains h then (k, none, true) :: loadSlots records rest taken
      else (k, some h, false) :: loadSlots records rest (h :: taken)

/-- One slot takes what the load gives it (R4, R174). A slot that stays unbound is recomputed with the others, so its
brake request reads yes: the model's choice (notes/assumptions/34.md). -/
def State.loadSlot (s : State) (x : Slot × Option Hid × Bool) : State :=
  let s := s.changeBinding x.1 x.2.1
  let s := s.setStoreStatus x.1 (if x.2.2 then .unsaved else .saved)
  { s with store := { s.store with bad := s.store.bad.set x.1 x.2.2 } }

/-- Some flag of the bad set is set: the STORE_BAD note (R172, R186). -/
def Store.anyBad (st : Store) : Bool := allSlots.any fun k => st.bad[k]

/-- Completion of the Binding Store load (R174, R184). -/
def State.completeLoad (s : State) : State :=
  let s := (loadSlots s.store.records allSlots []).foldl State.loadSlot s
  let s := { s with store := { s.store with load := .ready }, served := true }
  s.raiseIf s.store.anyBad .fault

end Sys2Proof.Machine
end

