-- ==== Sys2Proof/Machine/Pairing.lean ====
section
/-! DEFINITION. The pad burst of the Rail Frame Generator (R87, R89), the notice queue (R38) and the Pairing
Controller's protocol (chapter 10). -/

namespace Sys2Proof.Machine

/-! ### Pad burst -/

/-- The burst items of no burst, with PADFEED idle (R88, R89). -/
def Rail.burstIdle (r : Rail) : Rail :=
  { r with burst := .idle, burstSlot := none, burstRepeat := none, programSent := 0, padfeed := none }

/-- A stop of the pad burst; a burst that is IDLE is not changed (R89). -/
def State.stopBurst (s : State) : State :=
  match s.rail.burst with
  | .active => { s with rail := s.rail.burstIdle }
  | .idle => s

/-- A burst request for slot k: in HALT a new burst starts, replacing one that is ACTIVE (R87). -/
def State.requestBurst (s : State) (k : Slot) : State :=
  if s.track = .halt then
    { s with rail := { s.rail.burstIdle with
        burst := .active, burstSlot := some k, burstRepeat := some s.params.programRepeat } }
  else s

/-! ### Notices -/

/-- A notice enters the queue at the back, or is dropped at a full queue (R38). -/
def State.notify (s : State) (hid : Hid) (kind : NoticeKind) : State :=
  if s.notices.length < Config.noticeCapacity then
    { s with notices := s.notices ++ [{ hid := hid, kind := kind }] }
  else s

/-! ### Pairing -/

/-- The endings from outside send REFUSED to a candidate (R169). -/
def PairingOutcome.refusesCandidate : PairingOutcome → Bool
  | .timeout => true
  | .aborted => true
  | _ => false

/-- The ending of a pairing (R169), with a stop request in PROGRAMMING (R164, R168). -/
def State.endPairing (s : State) (outcome : PairingOutcome) : State :=
  let p := s.pairing
  let s := if p.state = .programming then s.stopBurst else s
  let s :=
    match p.candidate with
    | some h => if outcome.refusesCandidate then s.notify h .refused else s
    | none => s
  ({ s with
    pairing := Pairing.idle
    result := {
      slot := p.slot, hid := p.candidate, outcome := outcome, attempts := p.attempt, ignored := p.ignored,
      store := if outcome = PairingOutcome.bound then .pending else .none } }).raise .pairing

/-- A slot is free under AUTO: no binding and no console drive (R161). -/
def State.free (s : State) (k : Slot) : Bool :=
  (s.car k).binding.isNone && (s.car k).consoleDrive.isNone

/-- The slot that a car on the pad is programmed to (R161). -/
def State.chooseSlot (s : State) : Option Slot :=
  match s.pairing.mode with
  | some (.slot k) => some k
  | some .auto => allSlots.find? s.free
  | none => none

/-- A burst for slot k is requested and the pairing waits for its completion (R161, R163). -/
def State.program (s : State) (k : Slot) (attempt : Nat) : State :=
  ({ s with pairing := { s.pairing with
      state := .programming, slot := some k, attempt := attempt, verifyExpiry := none } }).requestBurst k

/-- The pad has emptied: back to AWAIT_CAR with attempt 0; under AUTO the slot becomes absent (R162, R163). -/
def State.awaitCarAgain (s : State) : State :=
  { s with pairing := { s.pairing with
      state := .awaitCar
      attempt := 0
      verifyExpiry := none
      slot := if s.pairing.mode = some .auto then none else s.pairing.slot } }

/-- A failed attempt in VERIFY: a new burst, or PROGRAM_FAILED at the attempts limit (R163). -/
def State.failedAttempt (s : State) : State :=
  match s.pairing.slot with
  | some k =>
    if s.pairing.attempt < s.params.attempts then s.program k (s.pairing.attempt + 1)
    else s.endPairing .programFailed
  | none => s.endPairing .programFailed

/-- A PAD report from the LIVE pad (R161 to R163, R165). -/
def State.padReport (s : State) (occ : Occupancy) (readId : Option Slot) : State :=
  match s.pairing.state with
  | .awaitCar =>
    match occ with
    | .one =>
      match s.chooseSlot with
      | some k => s.program k 1
      | none => s.endPairing .noSlot
    | _ => s
  | .programming =>
    match occ with
    | .empty => s.stopBurst.awaitCarAgain
    | _ => s
  | .verify =>
    match occ with
    | .empty => s.awaitCarAgain
    | .one =>
      if readId.isSome ∧ readId = s.pairing.slot then
        { s with pairing := { s.pairing with state := .awaitHandset, verifyExpiry := none } }
      else s.failedAttempt
    | .many => s.failedAttempt
  | _ => s

/-- A change of the PAD entry's status out of LIVE ends a pairing whose car is not yet verified (R164). -/
def State.padStatus (s : State) (role : Role) (old new : NodeStatus) : State :=
  if role = .pad ∧ old = .live ∧ new ≠ .live
      ∧ (s.pairing.state = .awaitCar ∨ s.pairing.state = .programming ∨ s.pairing.state = .verify) then
    s.endPairing .padLost
  else s

/-- The completion of the burst for slot k (R162): discarded in any state other than PROGRAMMING. -/
def State.burstCompleted (s : State) (k : Option Slot) : State :=
  if s.pairing.state = .programming ∧ s.pairing.slot = k then
    { s with pairing := { s.pairing with
        state := .verify, verifyExpiry := some (after s.now s.params.verifyWait) } }
  else s

/-- A HID whose offer is taken for slot k: unbound, or bound to k itself (R165). -/
def State.eligible (s : State) (owner : Option Slot) : Bool :=
  match owner with
  | none => true
  | some j => decide (s.pairing.slot = some j)

/-- The ignored count of the pairing in progress (R165, R192). -/
def State.countIgnored (s : State) : State :=
  { s with pairing := { s.pairing with ignored := bump s.pairing.ignored } }

/-- A BIND offer of a HID, with the slot it is bound to or none (R165, R166). -/
def State.bindOffer (s : State) (hid : Hid) (owner : Option Slot) : State :=
  match s.pairing.state with
  | .awaitHandset =>
    if s.eligible owner then
      ({ s with pairing := { s.pairing with
          state := .confirm, candidate := some hid,
          confirmExpiry := some (after s.now s.params.confirm) } }).notify hid .candidate
    else s.countIgnored
  | .confirm =>
    if s.pairing.candidate = some hid then s
    else if s.eligible owner then
      match s.pairing.candidate with
      | some c => ((s.endPairing .contested).notify c .refused).notify hid .refused
      | none => (s.endPairing .contested).notify hid .refused
    else s.countIgnored
  | _ => s

/-- The confirm expiry commits the candidate's binding (R167). -/
def State.commit (s : State) : State :=
  match s.pairing.slot, s.pairing.candidate with
  | some k, some h =>
    (((s.changeBinding k (some h)).requestWrite k).endPairing .bound).notify h .bound
  | _, _ => s

/-- The Pairing Controller follows the track out of HALT (R168). -/
def State.pairingLeavesHalt (s : State) : State :=
  if s.pairing.state = .idle then s else s.endPairing .aborted

end Sys2Proof.Machine
end

