-- ==== Sys2Proof/Machine/Track.lean ====
section
/-! DEFINITION. The Track State Controller (chapter 4): one change of track state with every follower's part
in it (R63), wakes, auto-caution requests, and the resets (R75, R76). -/

namespace Sys2Proof.Machine

/-- Leaving CAUTION makes the caution cause absent (R72). -/
def causeAfterLeaving (old : TrackState) (cause : Option CautionCause) : Option CautionCause :=
  match old with
  | .caution => none
  | _ => cause

/-- The Rail Frame Generator at an entry to SETTLE: rail power on, the settle counter loaded, the first frame
start one interval later (R78, R86). -/
def Rail.enterSettle (r : Rail) (now : TrackTime) : Rail :=
  { r with power := true, settleCounter := r.settleCount, nextStart := some (after now r.frameInterval) }

/-- The Rail Frame Generator at an entry to STANDBY: rail power off, frames stopped and cut short, the settle
counter 0 (R78, R86). -/
def Rail.enterStandby (r : Rail) : Rail :=
  { r with power := false, settleCounter := 0, nextStart := none, raildata := none, padfeed := none }

/-- The Rail Frame Generator follows a change of track state (R78, R85, R89). -/
def State.railFollows (s : State) (old : TrackState) : State :=
  let s := if old = .halt then s.stopBurst else s
  match s.track with
  | .settle => { s with rail := s.rail.enterSettle s.now }
  | .standby => { s with rail := s.rail.enterStandby }
  | _ => s

/-- The Position Tracker follows an entry to STANDBY (R118, R126). -/
def State.positionsFollow (s : State) : State :=
  if s.track = .standby then { s with positions := Vector.replicate 8 Position.absent } else s

/-- The Pairing Controller follows the track out of HALT (R168). -/
def State.pairingFollows (s : State) (old : TrackState) : State :=
  if old = .halt then s.pairingLeavesHalt else s

/-- A registry entry at an entry to STANDBY (R99). -/
def Node.standby (n : Node) : Node :=
  match n.role with
  | .none => n
  | _ => { n with status := .unheard, declared := none }

/-- The transmit queue without its waiting messages: the one being sent is carried to its end (R106). -/
def State.sentThrows (s : State) : List Throw := if s.throwSending then s.throws.take 1 else []

/-- The Node Bus Interface follows an entry to STANDBY (R99, R106). The PAD entry's loss finds no pairing: a
pairing has ended ABORTED in this event (R164). -/
def State.busFollows (s : State) : State :=
  if s.track = .standby then
    { s with nodes := Vector.ofFn fun a : Addr => s.nodes[a].standby, throws := s.sentThrows }
  else s

/-- One change of track state: the new state held, STATE raised, and every follower's part (R63). -/
def State.changeTrack (s : State) (new : TrackState) : State :=
  let old := s.track
  let s := ({ s with track := new, cautionCause := causeAfterLeaving old s.cautionCause }).raise .state
  let s := s.driveFollows
  let s := s.railFollows old
  let s := s.arbiterFollows
  let s := s.positionsFollow
  let s := s.pairingFollows old
  s.busFollows

/-- The entry to SETTLE by a wake: last wake set, rail fault note cleared (R64, R71, R74). -/
def State.wakeUp (s : State) (cause : WakeCause) : State :=
  { (s.changeTrack .settle) with lastWake := some cause, railFaultNote := false }

/-- The entry to CAUTION with its cause (R68, R72). -/
def State.enterCaution (s : State) (cause : CautionCause) : State :=
  { (s.changeTrack .caution) with cautionCause := some cause }

/-- A wake request from the Handset Receiver (R71). -/
def State.wakeRequest (s : State) (k : Slot) : State :=
  if s.track = .standby ∧ s.options.handsetWake = true ∧ s.railflt = false then s.wakeUp (.handset k) else s

/-- The lowest slot that holds a wake (R66). -/
def State.heldWake (s : State) : Option Slot :=
  if s.options.handsetWake = true ∧ s.railflt = false then
    allSlots.find? fun k =>
      (s.car k).binding.isSome && decide ((s.car k).link = .live) && (s.car k).inputs.wake
  else none

/-- SLEEP in HALT or SETTLE: to STANDBY, and on to SETTLE where a wake is held (R65, R66). -/
def State.goToSleep (s : State) : State :=
  match s.heldWake with
  | some k => (s.changeTrack .standby).wakeUp (.handset k)
  | none => s.changeTrack .standby

/-- The source of an auto-caution request is enabled (R73). -/
def Options.enables (o : Options) : CautionSource → Bool
  | .lapse => o.autoLapse
  | .lateConflict => o.autoLateConflict
  | .nodeFault => o.autoNodeFault

def CautionSource.cause : CautionSource → CautionCause
  | .lapse => .lapse
  | .lateConflict => .lateConflict
  | .nodeFault => .nodeFault

/-- An auto-caution request is taken: an enabled one in RUN enters CAUTION with its source as cause (R72). -/
def State.takeCaution (s : State) (c : CautionSource) : State :=
  if s.track = .run ∧ s.options.enables c = true then s.enterCaution c.cause else s

/-- The auto-caution requests handed in the event are taken in the order handed (R72, notes/assumptions/14.md).
Requests handed while they are taken find a state other than RUN and are ignored. -/
def State.takeCautionRequests (s : State) : State :=
  let requests := s.cautionRequests
  { (requests.foldl State.takeCaution s) with cautionRequests := [] }

/-! ### Resets -/

/-- The soft reset: what changes during operation takes its reset value, the configuration, the Binding Store,
the event enables, the served mark and the LFSR are kept (R76, R110, R177, R184). -/
def State.softReset (s : State) : State :=
  { s with
    now := 0
    flags := LatchedFlags.clear
    response := none
    softResetDue := false
    receiver := .hunt
    unbound := []
    watch := Vector.replicate 8 none
    notices := []
    handsetErrors := 0
    handsetDuplicates := 0
    cars := Vector.ofFn fun k : Slot => s.cars[k].softReset
    rail := s.rail.softReset
    track := .standby
    cautionCause := none
    lastWake := none
    railFaultNote := false
    cautionRequests := []
    nodes := Vector.ofFn fun a : Addr => s.nodes[a].softReset
    throws := []
    throwSending := false
    nodeErrors := 0
    strayReports := 0
    positions := Vector.replicate 8 Position.absent
    sections := Vector.ofFn fun a : Addr => s.sections[a].map (Section.softReset s.pointerByMode)
    decisions := []
    decisionOverflows := 0
    pairing := Pairing.idle
    result := PairingResult.cleared }

/-- A POR or RST is taken and holds the part (R75). -/
def State.hold (s : State) : State := State.por s.pending true s.railflt s.store.por

end Sys2Proof.Machine
end

