-- ==== Sys2Proof/Machine/Responses.lean ====
section
/-! DEFINITION. The data bytes of the responses (R198, Tables 12-4 and 12-5): each field in the order its owning
rule lists the fields. -/

namespace Sys2Proof.Machine

/-- The track state returned by the five track commands (R183). -/
def State.trackData (s : State) : List Byte := [s.track.code]

/-- Every option in the order of R73. -/
def Options.bytes (o : Options) : List Byte :=
  [o.cautionLanes.code, enabledCode o.handsetWake, o.pointerMode.code, enabledCode o.autoLapse,
   enabledCode o.autoLateConflict, enabledCode o.autoNodeFault]

/-- Both rail settings (R80). -/
def Rail.settings (r : Rail) : List Byte := [byte1 r.frameInterval, byte1 r.settleCount]

def Curve.bytes (c : Curve) : List Byte := c.toList.map byte1

/-- A car record in the order of Table 1-1, then the watch pending mark (R19, R198). -/
def Car.bytes (r : Car) : List Byte :=
  optional 4 bytes4 r.binding
  ++ [r.link.code]
  ++ optional 1 (fun n => [byte1 n]) r.lastSeq
  ++ [byte1 r.inputs.thr, flagCode r.inputs.lane, flagCode r.inputs.brake, flagCode r.inputs.wake,
      byte1 r.inputs.batt, flagCode r.lowBattery, byte1 r.calLo, byte1 r.calHi]
  ++ Curve.bytes r.raceCurve ++ Curve.bytes r.cautionCurve
  ++ [byte1 r.speedLimit, byte1 r.accelStep, byte1 r.decelStep]
  ++ bytes2 r.watchTimeout
  ++ optional 2 bytes2 r.pendingWatch
  ++ [byte1 r.fadeStep, byte1 r.fadeCap, r.laneMode.code, r.retryMode.code, flagCode r.armed]
  ++ optional 1 (fun n => [byte1 n]) r.consoleDrive
  ++ bytes2 r.vtop
  ++ [byte1 r.accelMargin, byte1 r.decelMargin, byte1 r.carLength, byte1 r.target, byte1 r.output,
      flagCode r.brakeRequest, r.storeStatus.code, flagCode r.pendingWatch.isSome]

/-- A registry entry (R101), in the order of R94. -/
def Node.bytes (n : Node) : List Byte :=
  [n.role.code]
  ++ optional 1 (fun k => [k.code]) n.declared
  ++ [n.status.code]
  ++ optional 4 bytes4 n.lastHeard
  ++ optional 1 (fun f => [f.code]) n.fault

/-- An upstream link as SET_SECTION carries it: 00h for absent, then the distance (R198). The distance of an absent link is
sent as zeros: the model's choice (notes/assumptions/43.md). -/
def linkBytes : Option Link → List Byte
  | none => [0, 0, 0]
  | some l => addrCode l.node :: bytes2 l.distance

/-- An upstream link in the optional field class (R198, notes/assumptions/16.md). -/
def linkOptional (l : Option Link) : List Byte :=
  optional 3 (fun l => addrCode l.node :: bytes2 l.distance) l

/-- The map parameters in the order of R107, the links by `link`. -/
def SectionMap.bytes (link : Option Link → List Byte) (m : SectionMap) : List Byte :=
  bytes2 m.approach ++ bytes2 m.crossing ++ bytes2 m.straight ++ link m.linkA ++ link m.linkB
  ++ [byte1 m.guard, byte1 m.lead, byte1 m.pullIn, byte1 m.holdDuty]
  ++ bytes2 m.coilLimit ++ bytes2 m.exitSlack ++ [byte1 m.anonClear]

/-- A claim with the fields of R111 in its order. -/
def Claim.bytes (c : Claim) : List Byte :=
  [carRefCode c.car, c.kind.code, c.origin.code, c.state.code] ++ bytes4 c.sense ++ bytes4 c.enter
  ++ clearBytes c.clear ++ optional 4 bytes4 c.decideTime ++ [c.exitLane.code]

/-- A section record and its claim list (R127). -/
def State.sectionBytes (s : State) (sec : Section) : List Byte :=
  sec.map.bytes linkOptional
  ++ [sec.admin.code, flagCode sec.overflow, flagCode (s.upstreamSilent sec)]
  ++ optional 4 bytes4 sec.lastOverflow
  ++ [slotCode sec.pointer] ++ bytes2 sec.lapseCount ++ bytes2 sec.overflowCount
  ++ [byte1 sec.claims.length] ++ sec.claims.flatMap Claim.bytes

/-- An entry of the unbound handset list (R29, R33). -/
def UnboundEntry.bytes (e : UnboundEntry) : List Byte :=
  bytes4 e.hid ++ [byte1 e.lastSeq] ++ bytes4 e.lastHeard ++ [flagCode e.bind, byte1 e.batt]

/-- The pairing mode: 00h for AUTO, else the slot (R158, R198). That AUTO keeps here the code 00h of OPEN_PAIRING is the
model's reading (notes/assumptions/38.md). -/
def pairingModeBytes : PairingMode → List Byte
  | .auto => [0]
  | .slot k => [slotCode k]

/-- The pairing state with the fields of R158 (R170). -/
def Pairing.bytes (p : Pairing) : List Byte :=
  [p.state.code]
  ++ optional 1 pairingModeBytes p.mode
  ++ optional 1 (fun k => [slotCode k]) p.slot
  ++ [byte1 p.attempt]
  ++ optional 4 bytes4 p.candidate
  ++ bytes2 p.ignored
  ++ optional 4 bytes4 p.windowExpiry ++ optional 4 bytes4 p.verifyExpiry ++ optional 4 bytes4 p.confirmExpiry

/-- The pairing result record with the fields of R169 (R170). -/
def PairingResult.bytes (r : PairingResult) : List Byte :=
  optional 1 (fun k => [slotCode k]) r.slot ++ optional 4 bytes4 r.hid
  ++ [r.outcome.code, byte1 r.attempts] ++ bytes2 r.ignored ++ [r.store.code]

/-- The five pairing parameters (R159). -/
def PairingParams.bytes (p : PairingParams) : List Byte :=
  bytes2 p.window ++ bytes2 p.confirm ++ [byte1 p.programRepeat] ++ bytes2 p.verifyWait ++ [byte1 p.attempts]

/-- A decision record (R154). -/
def Decision.bytes (d : Decision) : List Byte :=
  bytes4 d.time ++ [addrCode d.addr, carRefCode d.car, d.outcome.code]
  ++ optional 1 (fun r => [r.code]) d.reason ++ optional 1 (fun c => [carRefCode c]) d.other
  ++ [flagCode d.coilCap]

/-- The last wake: presence, CONSOLE or HANDSET, the slot or 00h (R198). -/
def wakeBytes : WakeCause → List Byte
  | .console => [0, 0]
  | .handset k => [1, slotCode k]

/-- The items of READ_STATUS (R186), those of the Track State Controller first (R74). -/
def State.statusBytes (s : State) : List Byte :=
  [s.track.code]
  ++ optional 1 (fun c => [c.code]) s.cautionCause
  ++ optional 2 wakeBytes s.lastWake
  ++ [flagCode s.railFaultNote, lineCode s.railflt]
  ++ bytes4 s.now ++ bytes2 s.rail.frameCount.toNat ++ s.rail.settings
  ++ [s.eventFlags.code, s.enables.code, flagCode s.store.anyBad, byte1 s.decisions.length]
  ++ bytes2 s.handsetErrors ++ bytes2 s.handsetDuplicates ++ bytes2 s.nodeErrors ++ bytes2 s.strayReports
  ++ bytes2 s.decisionOverflows

/-! ### What stands on the transmit lines -/

/-- The idle fill on the Console Port's data-out line (R198). -/
def idleFill : Byte := 0xFF

/-- What the part sends for a command of L argument bytes: idle fill under the command frame and the turnaround byte, then
the response frame (R179). -/
def answerLine (len : Nat) (response : Option Response) : List Byte :=
  match response with
  | some r => List.replicate (len + 3) idleFill ++ r.bytes
  | none => []

/-- The bytes on data out while the console clocks the bytes of one transaction in, s the state that its command leaves
(R179, R180): idle fill but for the response of a completed command; response bytes not clocked are lost; a part held by POR
or RST sends idle fill alone. -/
def State.dataOut (s : State) (clocked : List Byte) : List Byte :=
  let sent :=
    match clocked with
    | _ :: len :: rest =>
      if s.held = false ∧ len.toNat ≤ rest.length then answerLine len.toNat s.response else []
    | _ => []
  (sent ++ List.replicate clocked.length idleFill).take clocked.length

/-- The notice frame being sent on the Handset Link (R38, R195). -/
def State.noticeLine (s : State) : Option (List Byte) := s.notices.head?.map noticeBytes

/-- The THROW frame being sent on the Track Node Bus (R105, R196). -/
def State.busLine (s : State) : Option (List Byte) :=
  if s.throwSending then s.throws.head?.map throwBytes else none

end Sys2Proof.Machine
end

