-- ==== Sys2Proof/Machine/CarCommands.lean ====
section
/-! DEFINITION. The console commands of the cars group (R8, R12, R13, R16 to R19). -/

namespace Sys2Proof.Machine

/-- Calibration lo after a SET_CAR: from the command if given, else from the record, at most 254 (R16). -/
def CarReq.newLo (q : CarReq) (r : Car) : Nat := min 254 (q.calLo.getD r.calLo)

/-- Calibration hi after a SET_CAR: from the command if given, else from the record, above lo (R16). -/
def CarReq.newHi (q : CarReq) (r : Car) : Nat := max (q.newLo r + 1) (q.calHi.getD r.calHi)

/-- Some value given was changed by a clamp, or hi was moved (R16). -/
def CarReq.clamped (q : CarReq) (r : Car) : Bool :=
  (q.newLo r != q.calLo.getD r.calLo) || (q.newHi r != q.calHi.getD r.calHi)
  || clampChanges 1 255 q.accelStep || clampChanges 1 255 q.decelStep || clampChanges 1 255 q.fadeStep
  || clampChanges 200 9000 q.vtop || clampChanges 60 255 q.carLength

/-- Armed after a change of lane mode (R10). -/
def CarReq.newArmed (q : CarReq) (r : Car) : Bool :=
  match r.laneMode, q.laneMode with
  | .latch, some .hold => decide (r.link = .live) && r.consoleDrive.isNone && r.inputs.lane
  | _, _ => r.armed

/-- The record with the parameters of a SET_CAR applied together (R16). -/
def CarReq.apply (q : CarReq) (r : Car) : Car :=
  { r with
    calLo := q.newLo r
    calHi := q.newHi r
    speedLimit := setParam 0 255 q.speedLimit r.speedLimit
    accelStep := setParam 1 255 q.accelStep r.accelStep
    decelStep := setParam 1 255 q.decelStep r.decelStep
    fadeStep := setParam 1 255 q.fadeStep r.fadeStep
    laneMode := q.laneMode.getD r.laneMode
    retryMode := q.retryMode.getD r.retryMode
    armed := q.newArmed r
    vtop := setParam 200 9000 q.vtop r.vtop
    accelMargin := setParam 0 255 q.accelMargin r.accelMargin
    decelMargin := setParam 0 255 q.decelMargin r.decelMargin
    carLength := setParam 60 255 q.carLength r.carLength }

/-- The command gives a value that the target depends on (R41). -/
def CarReq.drives (q : CarReq) : Bool := q.calLo.isSome || q.calHi.isSome || q.speedLimit.isSome

/-- SET_CAR (R16). -/
def State.setCarParams (s : State) (q : CarReq) : State :=
  let r := s.car q.slot
  let s := s.setCar q.slot (q.apply r)
  let s := if q.drives then s.recompute q.slot else s
  s.respond (okOrClamped (q.clamped r)) []

def execSetCar (args : List Byte) (s : State) : Host.Outcome State Fault Refusal :=
  s.serve (parseCar args) fun q s => s.setCarParams q

/-- SET_CURVE (R17). -/
def State.setCurve (s : State) (q : CurveReq) : State :=
  let s := s.modifyCar q.slot fun r =>
    match q.set with
    | .race => { r with raceCurve := q.points }
    | .caution => { r with cautionCurve := q.points }
  (s.recompute q.slot).respond .ok []

def execSetCurve (args : List Byte) (s : State) : Host.Outcome State Fault Refusal :=
  s.serve (parseCurve args) fun q s => s.setCurve q

/-- The watch timeout set at once, or pending while the timer runs or the link is LOST (R8). -/
def Car.setWatchTimeout (ms : Nat) (r : Car) : Car :=
  match r.link with
  | .none => { r with watchTimeout := ms, pendingWatch := none }
  | .silent => { r with watchTimeout := ms, pendingWatch := none }
  | _ => { r with pendingWatch := some ms }

/-- SET_WATCH (R8). -/
def State.setWatchTimeout (s : State) (q : WatchReq) : State :=
  (s.modifyCar q.slot (Car.setWatchTimeout (clamp 20 2000 q.ms))).respond
    (okOrClamped (clampChanges 20 2000 (some q.ms))) []

def execSetWatch (args : List Byte) (s : State) : Host.Outcome State Fault Refusal :=
  s.serve (parseWatch args) fun q s => s.setWatchTimeout q

/-- Console drive and armed after a DRIVE (R12): armed becomes no where console drive becomes present or
absent. -/
def Car.drive (level : Option Nat) (r : Car) : Car :=
  { r with
    consoleDrive := level
    armed := if r.consoleDrive.isSome = level.isSome then r.armed else false }

/-- DRIVE (R12). -/
def State.drive (s : State) (q : DriveReq) : State :=
  ((s.modifyCar q.slot (Car.drive q.level)).recompute q.slot).respond .ok []

def execDrive (args : List Byte) (s : State) : Host.Outcome State Fault Refusal :=
  s.serve (parseDrive args) fun q s => s.drive q

/-- ARM_LANE (R13). -/
def State.armLane (s : State) (k : Slot) : State :=
  match (s.car k).consoleDrive with
  | some _ => (s.modifyCar k fun r => { r with armed := !r.armed }).respond .ok []
  | none => s.respond .wrongState []

def execArmLane (args : List Byte) (s : State) : Host.Outcome State Fault Refusal :=
  s.serve (parseSlot args) fun k s => s.armLane k

/-- UNBIND (R18): a slot already unbound takes the same values too, and a car without console drive a target of 0 with the
brake requested. -/
def State.unbind (s : State) (k : Slot) : State :=
  ((s.changeBinding k none).requestWrite k).respond .ok []

def execUnbind (args : List Byte) (s : State) : Host.Outcome State Fault Refusal :=
  s.serve (parseSlot args) fun k s => s.unbind k

/-- READ_CAR (R19). -/
def execReadCar (args : List Byte) (s : State) : Host.Outcome State Fault Refusal :=
  s.serve (parseSlot args) fun k s => s.respond .ok (s.car k).bytes

end Sys2Proof.Machine
end

