-- ==== Sys2Proof/Machine/ConsoleCommands.lean ====
section
/-! DEFINITION. The console commands of the race, status and reset groups (R156, R157, R186, R189, R190, R192,
R193), and the frames that carry no command (R180, R182). -/

namespace Sys2Proof.Machine

/-- A section record at NEW_RACE (R157). -/
def Section.newRace (pointer : Slot) (sec : Section) : Section :=
  { sec with pointer := pointer, lapseCount := 0, overflowCount := 0 }

/-- NEW_RACE (R157). -/
def State.newRace (s : State) : State :=
  match s.track with
  | .halt =>
    ({ (s.mapSections (Section.newRace s.pointerByMode)) with decisions := [] }).respond .ok []
  | _ => s.respond .wrongState []

def execNewRace (args : List Byte) (s : State) : Host.Outcome State Fault Refusal :=
  s.serve (parseNone args) fun _ s => s.newRace

/-- READ_DECISION (R156). -/
def State.readDecision (s : State) : State :=
  match s.decisions with
  | [] => s.respond .ok [0]
  | d :: rest => ({ s with decisions := rest }).respond .ok (byte1 rest.length :: d.bytes)

def execReadDecision (args : List Byte) (s : State) : Host.Outcome State Fault Refusal :=
  s.serve (parseNone args) fun _ s => s.readDecision

/-- READ_STATUS (R186). -/
def execReadStatus (args : List Byte) (s : State) : Host.Outcome State Fault Refusal :=
  s.serve (parseNone args) fun _ s => s.respond .ok s.statusBytes

/-- ACK_EVENTS (R189). -/
def State.ackEvents (s : State) (mask : EventMask) : State :=
  ({ s with flags := s.flags.ack mask }).respond .ok [s.eventFlags.code]

def execAckEvents (args : List Byte) (s : State) : Host.Outcome State Fault Refusal :=
  s.serve (parseMask args) fun m s => s.ackEvents m

/-- SET_EVENT_ENABLE (R190). -/
def State.setEventEnable (s : State) (mask : EventMask) : State :=
  ({ s with enables := mask }).respond .ok [mask.code]

def execSetEventEnable (args : List Byte) (s : State) : Host.Outcome State Fault Refusal :=
  s.serve (parseMask args) fun m s => s.setEventEnable m

/-- Every counter of R192 set to 0. -/
def State.clearCounters (s : State) : State :=
  let s := s.mapSections fun sec => { sec with lapseCount := 0, overflowCount := 0 }
  ({ s with
    handsetErrors := 0
    handsetDuplicates := 0
    nodeErrors := 0
    strayReports := 0
    decisionOverflows := 0
    pairing := { s.pairing with ignored := 0 } }).respond .ok []

def execClearCounters (args : List Byte) (s : State) : Host.Outcome State Fault Refusal :=
  s.serve (parseNone args) fun _ s => s.clearCounters

/-- RESET (R193): answered OK, the soft reset due at the end of the transaction. -/
def execReset (args : List Byte) (s : State) : Host.Outcome State Fault Refusal :=
  s.serve (parseNone args) fun _ s => ({ s with softResetDue := true }).respond .ok []

/-- A command frame with an unknown code is read to its end and refused with BAD_ARG (R182). -/
def execUnknownCommand (_code : Byte) (_args : List Byte) (s : State) : Host.Outcome State Fault Refusal :=
  s.serve (none : Option Unit) fun _ s => s

/-- A transaction that ends before its command is complete changes nothing (R180). -/
def execTransactionDiscard (_bytes : List Byte) (s : State) : Host.Outcome State Fault Refusal := .next s

end Sys2Proof.Machine
end

