-- ==== Sys2Proof/Machine/HandsetEvents.lean ====
section
/-! DEFINITION. The Handset Receiver (chapter 2): characters and frames, accepted frames, the unbound handset
list, watch expiries and notice completions. -/

namespace Sys2Proof.Machine

/-- Armed after an accepted frame (R10). -/
def Car.armAfter (r : Car) (lane : Bool) : Bool :=
  match r.consoleDrive, r.laneMode with
  | some _, _ => r.armed
  | none, .hold => lane
  | none, .latch => if lane && !r.inputs.lane then !r.armed else r.armed

/-- The low-battery note after an accepted frame (R6, R26). -/
def noteAfter (batt : Nat) (note : Bool) : Bool :=
  if batt ≤ 1 then true else if 3 ≤ batt then false else note

/-- The record after an accepted frame, but for the watch timer's restart (R24). -/
def Car.accept (f : HandsetFrame) (r : Car) : Car :=
  { r with
    inputs := { thr := f.thr, lane := f.lane, brake := f.brake, wake := f.wake, batt := f.batt }
    lastSeq := some f.seq
    link := .live
    fadeCap := 255
    armed := r.armAfter f.lane
    lowBattery := noteAfter f.batt r.lowBattery }

/-- An accepted frame that finds the link SILENT, FADE or LOST raises LINK (R25). -/
def LinkState.returns : LinkState → Bool
  | .silent => true
  | .fade => true
  | .lost => true
  | .none => false
  | .live => false

/-- An accepted frame of slot k, with its hand-offs in the order of R24: Drive Unit, BIND offer, wake request. -/
def State.acceptFrame (s : State) (k : Slot) (f : HandsetFrame) : State :=
  let r := s.car k
  let s := (s.modifyCar k (Car.accept f)).restartWatch k
  let s := s.raiseIf r.link.returns .link
  let s := s.raiseIf (!r.lowBattery && noteAfter f.batt r.lowBattery) .batt
  let s := s.recompute k
  let s := if f.bind then s.bindOffer f.hid (some k) else s
  if f.wake = true ∧ s.track = .standby ∧ s.options.handsetWake = true then s.wakeRequest k else s

/-- The list after a frame of an unbound handset (R30): its entry at the front, the back entry of a full list
removed for a new one. -/
def unboundAfter (l : List UnboundEntry) (e : UnboundEntry) : List UnboundEntry :=
  (e :: l.filter fun x => x.hid != e.hid).take Config.unboundCapacity

/-- A frame of an unbound handset: the list, then the BIND offer (R28, R30). -/
def State.unboundFrame (s : State) (f : HandsetFrame) : State :=
  let s := { s with
    unbound := unboundAfter s.unbound
      { hid := f.hid, lastSeq := f.seq, lastHeard := s.now, bind := f.bind, batt := f.batt } }
  if f.bind then s.bindOffer f.hid none else s

/-- The slot whose binding is a HID (R22). -/
def State.ownerOf (s : State) (h : Hid) : Option Slot := allSlots.find? fun k => (s.car k).binding == some h

/-- A frame that passed every check of R21: a duplicate, an accepted frame, or a frame of an unbound handset
(R22, R23). -/
def State.handleFrame (s : State) (f : HandsetFrame) : State :=
  match s.ownerOf f.hid with
  | some k =>
    if (s.car k).lastSeq = some f.seq then { s with handsetDuplicates := bump s.handsetDuplicates }
    else s.acceptFrame k f
  | none => s.unboundFrame f

/-- A frame discarded by a check of R21: counted, the receiver in HUNT (R39). -/
def State.discardFrame (s : State) : State :=
  { s with receiver := .hunt, handsetErrors := bump s.handsetErrors }

/-- The last byte: the CRC-8 and identity checks, and the frame's handling; the receiver returns to HUNT
(R20, R21). -/
def State.frameArrives (s : State) (chars : List Byte) : State :=
  match parseHandset chars with
  | none => s.discardFrame
  | some f => if validHid f.hid then ({ s with receiver := .hunt }).handleFrame f else s.discardFrame

/-- A character on the receive side (R20, R21). -/
def State.receive (s : State) (char : Byte) (stop : Bool) : State :=
  match s.receiver with
  | .hunt => if stop && char == handsetStart then { s with receiver := .inFrame [] } else s
  | .inFrame chars =>
    if !stop then s.discardFrame
    else
      match chars with
      | [] => if char = handsetLength then { s with receiver := .inFrame [char] } else s.discardFrame
      | _ =>
        if chars.length < handsetLength.toNat + 1 then { s with receiver := .inFrame (chars ++ [char]) }
        else s.frameArrives (chars ++ [char])

def execHandsetCharacter (char : Byte) (stop : Bool) (s : State) : Host.Outcome State Fault Refusal :=
  s.take fun s => s.receive char stop

/-- The characters of a frame, in order, each with its stop bit (R20; notes/assumptions/19.md). -/
def State.receiveAll (s : State) (bytes : List Byte) : State := bytes.foldl (fun s b => s.receive b true) s

def execHandsetFrame (bytes : List Byte) (s : State) : Host.Outcome State Fault Refusal :=
  s.take fun s => s.receiveAll bytes

/-- More than 1 ms after a character in IN_FRAME without the next: discarded and counted (R21). -/
def execHandsetContinuityTimeout (s : State) : Host.Outcome State Fault Refusal :=
  s.take fun s =>
    match s.receiver with
    | .hunt => s
    | .inFrame _ => s.discardFrame

/-- An entry's age-out timer has reached its expiry (R31). -/
def UnboundEntry.aged (now : TrackTime) (e : UnboundEntry) : Bool := reached now (after e.lastHeard Config.ageOut)

/-- The age-out of a HID's entry (R31). -/
def execUnboundAgeOut (hid : Hid) (s : State) : Host.Outcome State Fault Refusal :=
  s.take fun s => { s with unbound := s.unbound.filter fun e => !(e.hid == hid && e.aged s.now) }

/-- The link to LOST: timer stopped, armed no, LINK raised (R35, R36). -/
def State.loseLink (s : State) (k : Slot) : State :=
  ((s.modifyCar k fun r => { r with link := .lost, armed := false }).setWatch k none).raise .link

/-- The first expiry in LIVE (R35): the fade cap is the output level; FADE, or LOST at level 0. -/
def State.firstExpiry (s : State) (k : Slot) : State :=
  let s := s.modifyCar k fun r => { r with fadeCap := r.output }
  if (s.car k).fadeCap = 0 then s.loseLink k
  else ((s.modifyCar k fun r => { r with link := .fade, armed := false }).restartWatch k).raise .link

/-- An expiry in FADE (R36): the fade cap falls by the fade step, stopping at 0. -/
def State.fadeExpiry (s : State) (k : Slot) : State :=
  let s := s.modifyCar k fun r => { r with fadeCap := r.fadeCap - r.fadeStep }
  if (s.car k).fadeCap = 0 then s.loseLink k else s.restartWatch k

/-- A watch timer's expiry (R35, R36), with the recomputation it hands on. -/
def State.watchExpires (s : State) (k : Slot) : State :=
  if expired s.now (s.watchOf k) then
    match (s.car k).link with
    | .live => (s.firstExpiry k).recompute k
    | .fade => (s.fadeExpiry k).recompute k
    | _ => s
  else s

def execWatchExpiry (k : Slot) (s : State) : Host.Outcome State Fault Refusal :=
  s.take fun s => s.watchExpires k

/-- The end of a notice's transmission: the next, if any, is begun (R38). -/
def execNoticeCompletion (s : State) : Host.Outcome State Fault Refusal :=
  s.take fun s => { s with notices := s.notices.tail }

end Sys2Proof.Machine
end

