-- ==== Sys2Proof/Machine/Nodes.lean ====
section
/-! DEFINITION. The Node Bus Interface (chapter 6): changes of an entry's status, the handling of a checked
message, SET_NODE's changes. -/

namespace Sys2Proof.Machine

/-- The entry to a status raises NODE: to SILENT, to MISMATCH, and to LIVE from SILENT or MISMATCH (R98). -/
def raisesNode (old new : NodeStatus) : Bool :=
  match new, old with
  | .silent, .silent => false
  | .silent, _ => true
  | .mismatch, .mismatch => false
  | .mismatch, _ => true
  | .live, .silent => true
  | .live, .mismatch => true
  | _, _ => false

/-- An entry takes new contents by a received frame or its silence timer: NODE raised, the change of status
handed on (R98). -/
def State.updateNode (s : State) (a : Addr) (n : Node) : State :=
  let old := s.node a
  let s := (s.setNode a n).raiseIf (raisesNode old.status n.status) .node
  s.padStatus n.role old.status n.status

/-- The declared kind is the one the role names (R95). -/
def NodeKind.isRole : NodeKind → Role → Bool
  | .sect, .sect => true
  | .gate, .gate => true
  | .pad, .pad => true
  | _, _ => false

/-- A kind of message is taken from a node of a role (R92). -/
def Role.sends (r : Role) : NodeMessage → Bool
  | .hello _ => decide (r ≠ .none)
  | .sense .. => decide (r = .sect) || decide (r = .gate)
  | .pad .. => decide (r = .pad)
  | .fault _ => decide (r ≠ .none)

/-- A HELLO of a configured address (R95). -/
def State.hello (s : State) (a : Addr) (kind : NodeKind) : State :=
  let n := s.node a
  s.updateNode a
    { n with
      declared := some kind
      lastHeard := some s.now
      status := if kind.isRole n.role then .live else .mismatch }

/-- The last heard time set by a frame that is ignored (R93). -/
def State.heardOnly (s : State) (a : Addr) : State := s.setNode a { s.node a with lastHeard := some s.now }

/-- A FAULT report of a LIVE entry (R104). -/
def State.faultReport (s : State) (a : Addr) (kind : NodeFault) : State :=
  let s := (s.setNode a { s.node a with fault := some kind }).raise .fault
  if (s.node a).role = .sect then (s.closeNow a).requestCaution .nodeFault else s

/-- A report of an entry LIVE or SILENT (R93, R96, R102 to R104). -/
def State.report (s : State) (a : Addr) (m : NodeMessage) : State :=
  let s := s.updateNode a { s.node a with status := .live, lastHeard := some s.now }
  match m with
  | .hello kind => s.hello a kind
  | .sense sensor lane car age =>
    s.sighting { node := a, role := (s.node a).role, sensor := sensor, lane := lane, car := car,
                 sense := before s.now age }
  | .pad occ id => s.padReport occ id
  | .fault kind => s.faultReport a kind

/-- A checked message addressed to 0, by the rows of R93. -/
def State.nodeMessage (s : State) (a : Addr) (m : NodeMessage) : State :=
  let n := s.node a
  if s.track = .standby then s
  else if n.status = .unconfigured ∨ n.role.sends m = false then
    { (s.heardOnly a) with strayReports := bump s.strayReports }
  else
    match m with
    | .hello kind => s.hello a kind
    | m =>
      if n.status = .unheard ∨ n.status = .mismatch then s.heardOnly a
      else s.report a m

/-- A frame's arrival on the bus (R91), with the auto-caution requests it hands. -/
def State.busFrame (s : State) (bytes : List Byte) : State :=
  match parseBusFrame bytes with
  | .bad => { s with nodeErrors := bump s.nodeErrors }
  | .elsewhere => s
  | .message a m => (s.nodeMessage a m).takeCautionRequests

/-- The silence timer of a LIVE entry has reached its expiry, 3000 ms after the last heard time (R96). -/
def Node.silenceDue (n : Node) (now : TrackTime) : Bool :=
  decide (n.status = .live) && expired now (n.lastHeard.map fun t => after t Config.silence)

/-- The silence timer's expiry (R96). -/
def State.goSilent (s : State) (a : Addr) : State := s.updateNode a { s.node a with status := .silent }

/-- Entries other than `a` that hold a role (R97). -/
def State.othersWith (s : State) (a : Addr) (role : Role) : Nat :=
  (allAddrs.filter fun b => (b != a) && decide ((s.node b).role = role)).length

/-- SET_NODE has no room for another node of the role (R97). -/
def State.noRoom (s : State) (a : Addr) (role : Role) : Bool :=
  match role with
  | .sect => decide (Config.sectionLimit ≤ s.othersWith a .sect)
  | .pad => decide (1 ≤ s.othersWith a .pad)
  | _ => false

/-- THROW messages waiting for an address removed; the one being sent is carried to its end (R100, R106). -/
def State.dropThrowsTo (s : State) (a : Addr) : State :=
  { s with throws := s.sentThrows ++ (s.throws.drop s.sentThrows.length).filter fun t => t.dest != a }

/-- A SET_NODE that changes the role (R100). -/
def State.changeRole (s : State) (a : Addr) (role : Role) : State :=
  let old := s.node a
  let s := s.setNode a
    { role := role, declared := none, status := quietStatus role, lastHeard := none, fault := none }
  let s := if old.role = .sect then (s.dropSection a).dropThrowsTo a else s
  let s := if role = .sect then s.setSection a (some (Section.created s.pointerByMode)) else s
  s.padStatus old.role old.status (quietStatus role)

end Sys2Proof.Machine
end

