-- ==== Sys2Proof/Machine/NodeCommands.lean ====
section
/-! DEFINITION. The console commands of the nodes and sections group (R97, R101, R109, R116, R117, R127). -/

namespace Sys2Proof.Machine

/-- SET_NODE (R97): the role already held sets only the fault to absent. -/
def State.setNodeRole (s : State) (q : NodeReq) : State :=
  if s.noRoom q.addr q.role then s.respond .noRoom []
  else if (s.node q.addr).role = q.role then
    (s.setNode q.addr { s.node q.addr with fault := none }).respond .ok []
  else (s.changeRole q.addr q.role).respond .ok []

def execSetNode (args : List Byte) (s : State) : Host.Outcome State Fault Refusal :=
  s.serve (parseNode args) fun q s => s.setNodeRole q

/-- READ_NODE (R101). -/
def execReadNode (args : List Byte) (s : State) : Host.Outcome State Fault Refusal :=
  s.serve (parseAddr args) fun a s => s.respond .ok (s.node a).bytes

/-- A link with its distance clamped to 0..30000 mm (R107). -/
def Link.clamped (l : Link) : Link := { l with distance := clamp 0 30000 l.distance }

/-- A link after a SET_SECTION. -/
def setLink (given : Option (Option Link)) (old : Option Link) : Option Link :=
  match given with
  | some l => l.map Link.clamped
  | none => old

/-- A given link's distance is changed by its clamp (R109). The distance behind a link given as absent is not read, whatever
its bytes hold: the model's choice (notes/assumptions/42.md). -/
def linkChanges (given : Option (Option Link)) : Bool :=
  match given with
  | some (some l) => clampChanges 0 30000 (some l.distance)
  | _ => false

/-- The map parameters with those given replaced and clamped (R107, R109). -/
def SectionReq.apply (q : SectionReq) (m : SectionMap) : SectionMap where
  approach := setParam 0 2000 q.approach m.approach
  crossing := setParam 100 1500 q.crossing m.crossing
  straight := setParam 100 1500 q.straight m.straight
  linkA := setLink q.linkA m.linkA
  linkB := setLink q.linkB m.linkB
  guard := setParam 0 255 q.guard m.guard
  lead := setParam 5 200 q.lead m.lead
  pullIn := setParam 5 100 q.pullIn m.pullIn
  holdDuty := setParam 10 100 q.holdDuty m.holdDuty
  coilLimit := setParam 100 2000 q.coilLimit m.coilLimit
  exitSlack := setParam 50 2000 q.exitSlack m.exitSlack
  anonClear := setParam 1 255 q.anonClear m.anonClear

/-- Some value given was changed by a clamp (R109). -/
def SectionReq.clamped (q : SectionReq) : Bool :=
  clampChanges 0 2000 q.approach || clampChanges 100 1500 q.crossing || clampChanges 100 1500 q.straight
  || linkChanges q.linkA || linkChanges q.linkB || clampChanges 0 255 q.guard || clampChanges 5 200 q.lead
  || clampChanges 5 100 q.pullIn || clampChanges 10 100 q.holdDuty || clampChanges 100 2000 q.coilLimit
  || clampChanges 50 2000 q.exitSlack || clampChanges 1 255 q.anonClear

/-- SET_SECTION (R109). Claims in the list keep their times. -/
def State.setSectionMap (s : State) (q : SectionReq) : State :=
  match s.sectionAt q.addr with
  | none => s.respond .wrongState []
  | some sec =>
    let map := q.apply sec.map
    (s.setSection q.addr (some { sec with map := map })).respond (okOrClamped q.clamped) (map.bytes linkBytes)

def execSetSection (args : List Byte) (s : State) : Host.Outcome State Fault Refusal :=
  s.serve (parseSection args) fun q s => s.setSectionMap q

/-- OPEN_SECTION (R117). -/
def State.openSection (s : State) (a : Addr) : State :=
  match s.sectionAt a with
  | none => s.respond .wrongState []
  | some sec =>
    ((s.setSection a (some { sec with admin := .opened })).setNode a { s.node a with fault := none }).respond .ok []

def execOpenSection (args : List Byte) (s : State) : Host.Outcome State Fault Refusal :=
  s.serve (parseAddr args) fun a s => s.openSection a

/-- CLOSE_SECTION (R116), with the auto-caution requests its denials hand. -/
def State.closeSection (s : State) (q : CloseReq) : State :=
  match s.sectionAt q.addr with
  | none => s.respond .wrongState []
  | some sec =>
    match q.mode with
    | .hold => (s.setSection q.addr (some sec.closeHold)).respond .ok []
    | .now => (s.closeNow q.addr).takeCautionRequests.respond .ok []

def execCloseSection (args : List Byte) (s : State) : Host.Outcome State Fault Refusal :=
  s.serve (parseClose args) fun q s => s.closeSection q

/-- READ_SECTION (R127). -/
def State.readSection (s : State) (a : Addr) : State :=
  match s.sectionAt a with
  | none => s.respond .wrongState []
  | some sec => s.respond .ok (s.sectionBytes sec)

def execReadSection (args : List Byte) (s : State) : Host.Outcome State Fault Refusal :=
  s.serve (parseAddr args) fun a s => s.readSection a

end Sys2Proof.Machine
end

