-- ==== Sys2Proof/Machine/NodeEvents.lean ====
section
/-! DEFINITION. The events of the Track Node Bus (chapter 6) and of the sections' claims (chapters 7 to 9). -/

namespace Sys2Proof.Machine

/-- The arrival of a frame of another station (R91, R93). -/
def execNodeFrame (bytes : List Byte) (s : State) : Host.Outcome State Fault Refusal :=
  s.take fun s => s.busFrame bytes

/-- The expiry of a LIVE node's silence timer (R96). -/
def execSilenceExpiry (a : Addr) (s : State) : Host.Outcome State Fault Refusal :=
  s.take fun s => if (s.node a).silenceDue s.now then s.goSilent a else s

/-- The bus goes idle: transmission of the THROW at the front begins (R105). -/
def execThrowTransmitStart (s : State) : Host.Outcome State Fault Refusal :=
  s.take fun s => if s.throws.isEmpty then s else { s with throwSending := true }

/-- The end of a THROW's transmission (R105). -/
def execThrowCompletion (s : State) : Host.Outcome State Fault Refusal :=
  s.take fun s => if s.throwSending then { s with throws := s.throws.tail, throwSending := false } else s

/-- The claim at a place of a section's list has reached its lapse time (R113, R136). -/
def State.lapseDue (s : State) (a : Addr) (place : Nat) : Bool :=
  match s.sectionAt a with
  | none => false
  | some sec =>
    match sec.claims[place]? with
    | none => false
    | some c => expired s.now c.lapse

/-- A claim's lapse (R113). -/
def execClaimLapse (a : Addr) (place : Nat) (s : State) : Host.Outcome State Fault Refusal :=
  s.take fun s => if s.lapseDue a place then (s.lapseClaim a place).takeCautionRequests else s

/-- A section whose overflow expiry is reached loses the OVERFLOW cause (R114). -/
def Section.overflowExpires (now : TrackTime) (sec : Section) : Section :=
  if expired now (sec.lastOverflow.map fun t => after t Config.overflowHold) then
    { sec with overflow := false, lastOverflow := none }
  else sec

/-- The overflow expiry (R114). -/
def execOverflowExpiry (a : Addr) (s : State) : Host.Outcome State Fault Refusal :=
  s.take fun s => s.modifySection a (Section.overflowExpires s.now)

/-- Slot k's claim at a section is PENDING and its decide time is reached (R144). -/
def State.decideDue (s : State) (a : Addr) (k : Slot) : Bool :=
  match s.sectionAt a with
  | none => false
  | some sec =>
    match sec.claimOf k with
    | none => false
    | some c => decide (c.state = .pending) && expired s.now c.decideTime

/-- A decide-time expiry (R144, R148). -/
def execDecideTimeExpiry (a : Addr) (k : Slot) (s : State) : Host.Outcome State Fault Refusal :=
  s.take fun s => if s.decideDue a k then (s.decideRequest a k).takeCautionRequests else s

end Sys2Proof.Machine
end

