-- ==== Sys2Proof/Machine/PairingCommands.lean ====
section
/-! DEFINITION. The console commands of the pairing group (R33, R159, R160, R168, R170, R178). -/

namespace Sys2Proof.Machine

/-- Some entry of role PAD is LIVE (R160). -/
def State.padLive (s : State) : Bool :=
  allAddrs.any fun a => decide ((s.node a).role = .pad) && decide ((s.node a).status = .live)

/-- The pairing that OPEN_PAIRING opens (R160). -/
def State.openedPairing (s : State) (mode : PairingMode) : Pairing :=
  { Pairing.idle with
    state := .awaitCar
    mode := some mode
    slot :=
      match mode with
      | .slot k => some k
      | .auto => none
    windowExpiry := some (after s.now s.params.window) }

/-- OPEN_PAIRING (R160). -/
def State.openPairing (s : State) (mode : PairingMode) : State :=
  if s.pairing.state ≠ .idle then s.respond .busy []
  else if s.track ≠ .halt then s.respond .wrongState []
  else if !s.padLive then s.respond .noPad []
  else ({ s with pairing := s.openedPairing mode }).respond .accepted []

def execOpenPairing (args : List Byte) (s : State) : Host.Outcome State Fault Refusal :=
  s.serve (parseOpenPairing args) fun mode s => s.openPairing mode

/-- CLOSE_PAIRING (R168). -/
def State.closePairing (s : State) : State :=
  (if s.pairing.state = .idle then s else s.endPairing .aborted).respond .ok []

def execClosePairing (args : List Byte) (s : State) : Host.Outcome State Fault Refusal :=
  s.serve (parseNone args) fun _ s => s.closePairing

/-- READ_PAIRING (R170). -/
def execReadPairing (args : List Byte) (s : State) : Host.Outcome State Fault Refusal :=
  s.serve (parseNone args) fun _ s => s.respond .ok (s.pairing.bytes ++ s.result.bytes)

/-- The pairing parameters with those given replaced and clamped (R159). -/
def PairingReq.apply (q : PairingReq) (p : PairingParams) : PairingParams where
  window := setParam 5000 60000 q.window p.window
  confirm := setParam 100 2000 q.confirm p.confirm
  programRepeat := setParam 4 32 q.programRepeat p.programRepeat
  verifyWait := setParam 200 2000 q.verifyWait p.verifyWait
  attempts := setParam 1 3 q.attempts p.attempts

/-- Some value given was changed by a clamp (R159). -/
def PairingReq.clamped (q : PairingReq) : Bool :=
  clampChanges 5000 60000 q.window || clampChanges 100 2000 q.confirm || clampChanges 4 32 q.programRepeat
  || clampChanges 200 2000 q.verifyWait || clampChanges 1 3 q.attempts

/-- SET_PAIRING (R159). -/
def State.setPairing (s : State) (q : PairingReq) : State :=
  let s := { s with params := q.apply s.params }
  s.respond (okOrClamped q.clamped) s.params.bytes

def execSetPairing (args : List Byte) (s : State) : Host.Outcome State Fault Refusal :=
  s.serve (parsePairing args) fun q s => s.setPairing q

/-- Every binding erased, and a write of every slot requested (R178). A slot already unbound is recomputed with the others,
so its brake request then reads yes in STANDBY: the model's choice (notes/assumptions/41.md). -/
def State.wipe (s : State) : State :=
  let s := if s.pairing.state = .idle then s else s.endPairing .aborted
  let s := allSlots.foldl (fun s k => s.changeBinding k none) s
  allSlots.foldl State.requestWrite s

/-- WIPE_BINDINGS (R178). -/
def State.wipeBindings (s : State) : State :=
  match s.track with
  | .halt => s.wipe.respond .ok []
  | .standby => s.wipe.respond .ok []
  | _ => s.respond .wrongState []

def execWipeBindings (args : List Byte) (s : State) : Host.Outcome State Fault Refusal :=
  s.serve (parseNone args) fun _ s => s.wipeBindings

/-- READ_UNBOUND (R33). -/
def execReadUnbound (args : List Byte) (s : State) : Host.Outcome State Fault Refusal :=
  s.serve (parseNone args) fun _ s =>
    s.respond .ok (byte1 s.unbound.length :: s.unbound.flatMap UnboundEntry.bytes)

end Sys2Proof.Machine
end

