-- ==== Sys2Proof/Machine/PairingEvents.lean ====
section
/-! DEFINITION. The expiries of the Pairing Controller (R163, R167, R168) and the completion of a store write
(R176). -/

namespace Sys2Proof.Machine

/-- The window expiry ends a pairing in progress with TIMEOUT (R168). -/
def execPairingWindowExpiry (s : State) : Host.Outcome State Fault Refusal :=
  s.take fun s =>
    if s.pairing.state ≠ .idle ∧ expired s.now s.pairing.windowExpiry = true then s.endPairing .timeout else s

/-- The verify expiry in VERIFY is a failed attempt (R163). -/
def execVerifyExpiry (s : State) : Host.Outcome State Fault Refusal :=
  s.take fun s =>
    if s.pairing.state = .verify ∧ expired s.now s.pairing.verifyExpiry = true then s.failedAttempt else s

/-- The confirm expiry in CONFIRM commits the binding (R167). -/
def execConfirmExpiry (s : State) : Host.Outcome State Fault Refusal :=
  s.take fun s =>
    if s.pairing.state = .confirm ∧ expired s.now s.pairing.confirmExpiry = true then s.commit else s

/-- The completion of the write in flight, with success or failure (R176). -/
def execStoreWriteCompletion (success : Bool) (s : State) : Host.Outcome State Fault Refusal :=
  s.take fun s =>
    match s.store.inFlight with
    | some w => s.completeWrite w success
    | none => s

end Sys2Proof.Machine
end

