-- ==== Sys2Proof/Machine/RailEvents.lean ====
section
/-! DEFINITION. The Rail Frame Generator's events (chapter 5), the rail fault input (R70), and the millisecond of
track time (R75, R110). -/

namespace Sys2Proof.Machine

/-- A program frame is begun while the burst is ACTIVE and its repeat is not reached (R88). -/
def Rail.beginProgram (r : Rail) : Rail :=
  match r.burst, r.burstSlot, r.burstRepeat with
  | .active, some k, some n =>
    if r.programSent < n then { r with programSent := r.programSent + 1, padfeed := some (programFrame k) } else r
  | _, _, _ => r

/-- The settle counter at a frame start in track state t (R86). -/
def settleAfter (t : TrackState) (counter : Nat) : Nat := if t = .settle then counter - 1 else counter

/-- The work of a frame start in the order of R81: slew steps, car words, frame count, status word, settle
counter, program frame, next frame start. -/
def State.startFrame (s : State) : State :=
  let t := s.track
  let s := s.mapCars (Car.slew t)
  let words : Vector Byte 8 := Vector.ofFn fun k : Slot => s.cars[k].railWord t
  let count := s.rail.frameCount + 1
  let r := { s.rail with
    frameCount := count
    raildata := some { words := words, status := statusWord t count }
    settleCounter := settleAfter t s.rail.settleCounter }
  { s with rail := { r.beginProgram with nextStart := some (after s.now r.frameInterval) } }

/-- A frame start is due: rail power on and track time at the next frame start (R79). -/
def State.frameDue (s : State) : Bool := s.rail.power && expired s.now s.rail.nextStart

def execFrameStart (s : State) : Host.Outcome State Fault Refusal :=
  s.take fun s => if s.frameDue then s.startFrame else s

/-- The settle completion (R69): it is handed where the settle counter has reached 0 in SETTLE
(notes/assumptions/23.md), and discarded in another state. -/
def execSettleCompletion (s : State) : Host.Outcome State Fault Refusal :=
  s.take fun s =>
    if s.track = .settle ∧ s.rail.settleCounter = 0 then s.changeTrack .halt else s

/-- The last program frame has been begun (R88). -/
def Rail.burstDone (r : Rail) : Bool :=
  match r.burst, r.burstRepeat with
  | .active, some n => decide (n ≤ r.programSent)
  | _, _ => false

/-- The burst completion (R88), handed to the Pairing Controller (R162). -/
def execBurstCompletion (s : State) : Host.Outcome State Fault Refusal :=
  s.take fun s =>
    if s.rail.burstDone then ({ s with rail := s.rail.burstIdle }).burstCompleted s.rail.burstSlot else s

/-- A rail fault (R70). -/
def State.railFault (s : State) : State :=
  match s.track with
  | .standby => s
  | _ => ({ (s.changeTrack .standby) with railFaultNote := true }).raise .fault

/-- Assertion of RAILFLT (R70): the line's level, and outside STANDBY a rail fault. While the part is held in
reset the level alone changes. -/
def execRailfltAssertion (s : State) : Host.Outcome State Fault Refusal :=
  let t := { s with railflt := true }
  if s.held then .next t else .next t.railFault

/-- Deassertion of RAILFLT changes the line's level alone (R70). -/
def execRailfltDeassertion (s : State) : Host.Outcome State Fault Refusal := .next { s with railflt := false }

/-- One step of the 16-bit LFSR: the exclusive or of bits 0, 2, 3 and 5 enters at bit 15 (R110). -/
def lfsrNext (v : BitVec 16) : BitVec 16 :=
  let bit := v.getLsbD 0 ^^ v.getLsbD 2 ^^ v.getLsbD 3 ^^ v.getLsbD 5
  (v >>> 1) ||| (if bit then 0x8000#16 else 0#16)

/-- A millisecond of track time: track time counts by one (R75) and the LFSR advances one step (R110). -/
def execLfsrStep (s : State) : Host.Outcome State Fault Refusal :=
  s.take fun s => { s with now := s.now + 1, lfsr := lfsrNext s.lfsr }

end Sys2Proof.Machine
end

