-- ==== Sys2Proof/Machine/ResetEvents.lean ====
section
/-! DEFINITION. The resets and the completion of the Binding Store load (R75, R76, R174). -/

namespace Sys2Proof.Machine

/-- The soft reset at the end of a RESET's transaction (R76, R193). -/
def execSoftReset (s : State) : Host.Outcome State Fault Refusal :=
  s.take fun s => if s.softResetDue then s.softReset else s

/-- The supply comes up: every block held at its POR values (R75). -/
def execPowerOnReset (s : State) : Host.Outcome State Fault Refusal := .next s.hold

/-- RST is asserted: as a power-on reset (R75). -/
def execRstPinReset (s : State) : Host.Outcome State Fault Refusal := .next s.hold

/-- The end of POR or RST: every block holds its POR values, track time is 0 and the load runs (R75). -/
def State.release (s : State) : State :=
  if s.held then State.por s.pending false s.railflt s.store.por else s

def execResetRelease (s : State) : Host.Outcome State Fault Refusal := .next s.release

/-- Completion of the Binding Store load (R174, R184). -/
def execStoreLoadCompletion (s : State) : Host.Outcome State Fault Refusal :=
  s.take fun s =>
    match s.store.load with
    | .loading => s.completeLoad
    | .ready => s

end Sys2Proof.Machine
end

