-- ==== Sys2Proof/Machine/TrackCommands.lean ====
section
/-! DEFINITION. The console commands of the track group (R64 to R68, R73, R80). -/

namespace Sys2Proof.Machine

/-- A track command's answer: the status and the track state as it stands after the event (R183). -/
def State.answerTrack (s : State) (status : Status) : State := s.respond status s.trackData

/-- WAKE (R64). -/
def State.wake (s : State) : State :=
  match s.track with
  | .standby => if s.railflt then s.answerTrack .railFault else (s.wakeUp .console).answerTrack .ok
  | _ => s.answerTrack .ok

def execWake (args : List Byte) (s : State) : Host.Outcome State Fault Refusal :=
  s.serve (parseNone args) fun _ s => s.wake

/-- SLEEP (R65, R66). -/
def State.sleep (s : State) : State :=
  match s.track with
  | .standby => s.answerTrack .ok
  | .settle => s.goToSleep.answerTrack .ok
  | .halt => s.goToSleep.answerTrack .ok
  | .run => s.answerTrack .wrongState
  | .caution => s.answerTrack .wrongState

def execSleep (args : List Byte) (s : State) : Host.Outcome State Fault Refusal :=
  s.serve (parseNone args) fun _ s => s.sleep

/-- HALT (R67). -/
def State.haltTrack (s : State) : State :=
  match s.track with
  | .standby => s.answerTrack .notReady
  | .settle => s.answerTrack .notReady
  | .halt => s.answerTrack .ok
  | .run => (s.changeTrack .halt).answerTrack .ok
  | .caution => (s.changeTrack .halt).answerTrack .ok

def execHalt (args : List Byte) (s : State) : Host.Outcome State Fault Refusal :=
  s.serve (parseNone args) fun _ s => s.haltTrack

/-- GO (R67). -/
def State.goTrack (s : State) : State :=
  match s.track with
  | .standby => s.answerTrack .notReady
  | .settle => s.answerTrack .notReady
  | .halt => (s.changeTrack .run).answerTrack .ok
  | .run => s.answerTrack .ok
  | .caution => (s.changeTrack .run).answerTrack .ok

def execGo (args : List Byte) (s : State) : Host.Outcome State Fault Refusal :=
  s.serve (parseNone args) fun _ s => s.goTrack

/-- CAUTION (R68). -/
def State.cautionTrack (s : State) : State :=
  match s.track with
  | .run => (s.enterCaution .console).answerTrack .ok
  | _ => s.answerTrack .wrongState

def execCaution (args : List Byte) (s : State) : Host.Outcome State Fault Refusal :=
  s.serve (parseNone args) fun _ s => s.cautionTrack

/-- The options with those given replaced (R73). -/
def Options.set (o : Options) (q : OptionsReq) : Options where
  cautionLanes := q.cautionLanes.getD o.cautionLanes
  handsetWake := q.handsetWake.getD o.handsetWake
  pointerMode := q.pointerMode.getD o.pointerMode
  autoLapse := q.autoLapse.getD o.autoLapse
  autoLateConflict := q.autoLateConflict.getD o.autoLateConflict
  autoNodeFault := q.autoNodeFault.getD o.autoNodeFault

/-- SET_OPTIONS (R73): a change of caution lane changes from ALLOW to DENY in CAUTION denies every PENDING
request with STATE in the same event. -/
def State.setOptions (s : State) (q : OptionsReq) : State :=
  let old := s.options
  let s := { s with options := old.set q }
  let s :=
    if s.track = .caution ∧ old.cautionLanes = .allow ∧ s.options.cautionLanes = .deny then s.denyForState else s
  s.respond .ok s.options.bytes

def execSetOptions (args : List Byte) (s : State) : Host.Outcome State Fault Refusal :=
  s.serve (parseOptions args) fun q s => s.setOptions q

/-- SET_RAIL (R80): a next frame start already set and the settle counter are not moved. -/
def State.setRail (s : State) (q : RailReq) : State :=
  let s := { s with rail := { s.rail with
    frameInterval := setParam 4 20 q.frameInterval s.rail.frameInterval
    settleCount := setParam 8 255 q.settleCount s.rail.settleCount } }
  s.respond (okOrClamped (clampChanges 4 20 q.frameInterval || clampChanges 8 255 q.settleCount)) s.rail.settings

def execSetRail (args : List Byte) (s : State) : Host.Outcome State Fault Refusal :=
  s.serve (parseRail args) fun q s => s.setRail q

end Sys2Proof.Machine
end

