-- ==== Sys2Proof/Machine/Dispatch.lean ====
section
/-! DEFINITION. The meaning of every command: one arm for each row of spec/opcode_table.json. -/

namespace Sys2Proof.Machine

def exec (i : Instr) (s : State) : Host.Outcome State Fault Refusal :=
  match i with
  | .wake args => Sys2Proof.Machine.execWake args s
  | .sleep args => Sys2Proof.Machine.execSleep args s
  | .halt args => Sys2Proof.Machine.execHalt args s
  | .go args => Sys2Proof.Machine.execGo args s
  | .caution args => Sys2Proof.Machine.execCaution args s
  | .setOptions args => Sys2Proof.Machine.execSetOptions args s
  | .setRail args => Sys2Proof.Machine.execSetRail args s
  | .setCar args => Sys2Proof.Machine.execSetCar args s
  | .setCurve args => Sys2Proof.Machine.execSetCurve args s
  | .setWatch args => Sys2Proof.Machine.execSetWatch args s
  | .drive args => Sys2Proof.Machine.execDrive args s
  | .armLane args => Sys2Proof.Machine.execArmLane args s
  | .unbind args => Sys2Proof.Machine.execUnbind args s
  | .readCar args => Sys2Proof.Machine.execReadCar args s
  | .setNode args => Sys2Proof.Machine.execSetNode args s
  | .readNode args => Sys2Proof.Machine.execReadNode args s
  | .setSection args => Sys2Proof.Machine.execSetSection args s
  | .openSection args => Sys2Proof.Machine.execOpenSection args s
  | .closeSection args => Sys2Proof.Machine.execCloseSection args s
  | .readSection args => Sys2Proof.Machine.execReadSection args s
  | .openPairing args => Sys2Proof.Machine.execOpenPairing args s
  | .closePairing args => Sys2Proof.Machine.execClosePairing args s
  | .readPairing args => Sys2Proof.Machine.execReadPairing args s
  | .setPairing args => Sys2Proof.Machine.execSetPairing args s
  | .wipeBindings args => Sys2Proof.Machine.execWipeBindings args s
  | .readUnbound args => Sys2Proof.Machine.execReadUnbound args s
  | .newRace args => Sys2Proof.Machine.execNewRace args s
  | .readDecision args => Sys2Proof.Machine.execReadDecision args s
  | .readStatus args => Sys2Proof.Machine.execReadStatus args s
  | .ackEvents args => Sys2Proof.Machine.execAckEvents args s
  | .setEventEnable args => Sys2Proof.Machine.execSetEventEnable args s
  | .clearCounters args => Sys2Proof.Machine.execClearCounters args s
  | .reset args => Sys2Proof.Machine.execReset args s
  | .unknownCommand code args => Sys2Proof.Machine.execUnknownCommand code args s
  | .transactionDiscard bytes => Sys2Proof.Machine.execTransactionDiscard bytes s
  | .softReset => Sys2Proof.Machine.execSoftReset s
  | .powerOnReset => Sys2Proof.Machine.execPowerOnReset s
  | .rstPinReset => Sys2Proof.Machine.execRstPinReset s
  | .resetRelease => Sys2Proof.Machine.execResetRelease s
  | .storeLoadCompletion => Sys2Proof.Machine.execStoreLoadCompletion s
  | .handsetFrame bytes => Sys2Proof.Machine.execHandsetFrame bytes s
  | .handsetContinuityTimeout => Sys2Proof.Machine.execHandsetContinuityTimeout s
  | .unboundAgeOut hid => Sys2Proof.Machine.execUnboundAgeOut hid s
  | .watchExpiry slot => Sys2Proof.Machine.execWatchExpiry slot s
  | .noticeCompletion => Sys2Proof.Machine.execNoticeCompletion s
  | .frameStart => Sys2Proof.Machine.execFrameStart s
  | .settleCompletion => Sys2Proof.Machine.execSettleCompletion s
  | .burstCompletion => Sys2Proof.Machine.execBurstCompletion s
  | .railfltAssertion => Sys2Proof.Machine.execRailfltAssertion s
  | .railfltDeassertion => Sys2Proof.Machine.execRailfltDeassertion s
  | .lfsrStep => Sys2Proof.Machine.execLfsrStep s
  | .nodeFrame bytes => Sys2Proof.Machine.execNodeFrame bytes s
  | .silenceExpiry addr => Sys2Proof.Machine.execSilenceExpiry addr s
  | .throwTransmitStart => Sys2Proof.Machine.execThrowTransmitStart s
  | .throwCompletion => Sys2Proof.Machine.execThrowCompletion s
  | .claimLapse addr place => Sys2Proof.Machine.execClaimLapse addr place s
  | .overflowExpiry addr => Sys2Proof.Machine.execOverflowExpiry addr s
  | .decideTimeExpiry addr slot => Sys2Proof.Machine.execDecideTimeExpiry addr slot s
  | .pairingWindowExpiry => Sys2Proof.Machine.execPairingWindowExpiry s
  | .verifyExpiry => Sys2Proof.Machine.execVerifyExpiry s
  | .confirmExpiry => Sys2Proof.Machine.execConfirmExpiry s
  | .storeWriteCompletion success => Sys2Proof.Machine.execStoreWriteCompletion success s
  | .handsetCharacter char stop => Sys2Proof.Machine.execHandsetCharacter char stop s

end Sys2Proof.Machine
end

