-- ==== Sys2Proof/Safety.lean ====
section
/-! DEFINITION. The properties of a state that every step keeps, and the words in which the statements say what a
command asks of a state, what it leaves unchanged, and which bytes the part sends. -/

namespace Sys2Proof.Machine

/-! ### Where commands are taken -/

/-- The part is out of reset. -/
def Running (s : State) : Prop := s.held = false

/-- The part is out of reset and the store load has completed: console commands are served (R184). -/
def Served (s : State) : Prop := s.held = false ∧ s.served = true

/-- The argument count L of a console command in Table 12-4; none for a command whose code is in no row. -/
def argLength : Instr → Option Nat
  | .setOptions _ => some 7
  | .setRail _ => some 3
  | .setCar _ => some 16
  | .setCurve _ => some 11
  | .setWatch _ => some 3
  | .drive _ => some 3
  | .armLane _ => some 1
  | .unbind _ => some 1
  | .readCar _ => some 1
  | .setNode _ => some 2
  | .readNode _ => some 1
  | .setSection _ => some 24
  | .openSection _ => some 1
  | .closeSection _ => some 2
  | .readSection _ => some 1
  | .openPairing _ => some 1
  | .setPairing _ => some 9
  | .ackEvents _ => some 1
  | .setEventEnable _ => some 1
  | .unknownCommand _ _ => none
  | i => if (consoleParts i).isSome then some 0 else none

/-! ### What is kept -/

/-- No claim of any section is a PENDING request. -/
def NoPending (s : State) : Prop :=
  ∀ a sec, s.sectionAt a = some sec → ∀ c ∈ sec.claims, c.state ≠ .pending

/-- The record of a slot whose binding has been erased, its store write requested (R3, R15): the levels apart. -/
def unboundRecord (r : Car) : Car :=
  { r with
    binding := none
    link := .none
    lastSeq := none
    inputs := { thr := 0, lane := false, brake := false, wake := false, batt := 7 }
    lowBattery := false
    watchTimeout := match r.pendingWatch with
      | some ms => ms
      | none => r.watchTimeout
    pendingWatch := none
    fadeCap := 255
    armed := false
    storeStatus := .pending }

/-- Slot k holds a wake: bound, LIVE, its WAKE button pressed (R66). -/
def HoldsWake (s : State) (k : Slot) : Prop :=
  (s.car k).binding.isSome = true ∧ (s.car k).link = .live ∧ (s.car k).inputs.wake = true

/-- SLEEP finds a wake held: the option enabled, RAILFLT not asserted, some slot holding it (R66). -/
def WakeHeld (s : State) : Prop :=
  s.options.handsetWake = true ∧ s.railflt = false ∧ ∃ k, HoldsWake s k

/-- The rail power switched on at an entry to SETTLE (R78, R86). -/
def settledRail (r : Rail) (now : TrackTime) : Rail :=
  { r with power := true, settleCounter := r.settleCount, nextStart := some (now + BitVec.ofNat 32 r.frameInterval) }

/-- The watch timeout a restart applies: a pending one, if present (R34). -/
def nextTimeout (r : Car) : Nat :=
  match r.pendingWatch with
  | some ms => ms
  | none => r.watchTimeout

/-- The record of a slot after an accepted frame, its levels apart (R10, R24, R26, R34). -/
def acceptedRecord (r : Car) (f : HandsetFrame) : Car :=
  { r with
    inputs := { thr := f.thr, lane := f.lane, brake := f.brake, wake := f.wake, batt := f.batt }
    lastSeq := some f.seq
    link := .live
    fadeCap := 255
    watchTimeout := nextTimeout r
    pendingWatch := none
    lowBattery := if f.batt ≤ 1 then true else if f.batt = 2 then r.lowBattery else false
    armed :=
      if r.consoleDrive ≠ none then r.armed
      else if r.laneMode = .hold then f.lane
      else if f.lane = true ∧ r.inputs.lane = false then !r.armed
      else r.armed }

/-- The state after an accepted frame of slot k, its offer and wake request apart (R24, R25, R26). -/
def accepted (s : State) (k : Slot) (f : HandsetFrame) : State :=
  { s with
    cars := s.cars.set k (Car.recompute s.track (acceptedRecord (s.car k) f))
    watch := s.watch.set k (some (s.now + BitVec.ofNat 32 (nextTimeout (s.car k))))
    flags := { s.flags with
      link := s.flags.link || decide ((s.car k).link = .silent ∨ (s.car k).link = .fade ∨ (s.car k).link = .lost)
      batt := s.flags.batt || decide ((s.car k).lowBattery = false ∧ f.batt ≤ 1) } }

/-- The entry of the unbound handset list for a frame heard now (R29). -/
def heardEntry (s : State) (f : HandsetFrame) : UnboundEntry :=
  { hid := f.hid, lastSeq := f.seq, lastHeard := s.now, bind := f.bind, batt := f.batt }

/-- The list after a frame of an unbound handset, its offer apart (R30). -/
def heard (s : State) (f : HandsetFrame) : State :=
  { s with unbound := (heardEntry s f :: s.unbound.filter fun e => e.hid ≠ f.hid).take 6 }

/-- A handset frame whose fields fit the layout of Table 12-1, with a valid identity. -/
structure FrameFits (f : HandsetFrame) : Prop where
  hid : f.hid ≠ 0 ∧ f.hid ≠ 0xFFFFFFFF#32
  seq : f.seq < 16
  thr : f.thr < 256
  batt : f.batt < 8

/-- Track time now has reached t by the signed difference (00_scope.md), as it has where t lies exactly 2^31 ms away
(notes/assumptions/40.md). -/
def Reached (now t : TrackTime) : Prop := (t - now).toInt ≤ 0

/-- The track states in which cars are stopped and car words blanked (R62, R82). -/
def Stopped (t : TrackState) : Prop := t = .standby ∨ t = .settle ∨ t = .halt

/-- The output level after the slew step of a frame start in RUN or CAUTION (R54). -/
def stepped (r : Car) : Nat :=
  if r.output < r.target then min r.target (r.output + r.accelStep) else max r.target (r.output - r.decelStep)

/-- The status a HELLO gives an entry of a role (R95). -/
def helloStatus (role : Role) (kind : NodeKind) : NodeStatus :=
  if (role = .sect ∧ kind = .sect) ∨ (role = .gate ∧ kind = .gate) ∨ (role = .pad ∧ kind = .pad) then .live
  else .mismatch

/-- The kinds of message taken from a role (R92). -/
def Takes (role : Role) : NodeMessage → Prop
  | .hello _ => role = .sect ∨ role = .gate ∨ role = .pad
  | .sense _ _ _ _ => role = .sect ∨ role = .gate
  | .pad _ _ => role = .pad
  | .fault _ => role = .sect ∨ role = .gate ∨ role = .pad

/-- A pairing whose car is not yet verified, which the pad's loss ends (R164). -/
abbrev NeedsPad (p : PairingState) : Prop := p = .awaitCar ∨ p = .programming ∨ p = .verify

/-- The entry of an address replaced. -/
def withNode (s : State) (a : Addr) (n : Node) : State := { s with nodes := s.nodes.set a n }

/-- The pairing in progress ended without a binding (R164, R168, R169): its result written, a burst of PROGRAMMING
stopped, PAIRING raised, and a candidate refused at TIMEOUT and ABORTED. -/
def pairingEnded (s : State) (o : PairingOutcome) : State :=
  { s with
    pairing := Pairing.idle
    result := { slot := s.pairing.slot, hid := s.pairing.candidate, outcome := o, attempts := s.pairing.attempt
                ignored := s.pairing.ignored, store := .none }
    rail := if s.pairing.state = .programming then s.stopBurst.rail else s.rail
    notices := match s.pairing.candidate with
      | some h =>
        if (o = .timeout ∨ o = .aborted) ∧ s.notices.length < 4 then s.notices ++ [{ hid := h, kind := .refused }]
        else s.notices
      | none => s.notices
    flags := { s.flags with pairing := true } }

/-- A pairing in progress aborted, as the track leaves HALT and at WIPE_BINDINGS (R168, R178). -/
def pairingAborted (s : State) : State :=
  if s.pairing.state = .idle then s else pairingEnded s .aborted

/-- A section's list after claims have gone: OVERFLOW goes with the last claim, and a CLOSING section with no PENDING
or GRANTED claim is CLOSED (R112, R114, R117). -/
def afterRemoval (sec : Section) (claims : List Claim) : Section :=
  { sec with
    claims := claims
    overflow := if claims = [] then false else sec.overflow
    lastOverflow := if claims = [] then none else sec.lastOverflow
    admin :=
      if sec.admin = .closing ∧ ∀ c ∈ claims, c.state ≠ .pending ∧ c.state ≠ .granted then .closed else sec.admin }

/-- A decision record without reason, other car or mark, written now for section a. -/
def plainRecord (s : State) (a : Addr) (car : CarRef) (o : DecisionOutcome) : Decision :=
  { time := s.now, addr := a, car := car, outcome := o, reason := none, other := none, coilCap := false }

/-- A DENY record written now for section a. -/
def denyRecord (s : State) (a : Addr) (k : Slot) (r : DenyReason) (other : Option CarRef) : Decision :=
  { time := s.now, addr := a, car := .slot k, outcome := .deny, reason := some r, other := other, coilCap := false }

/-- A record enters the decision queue, or is dropped and counted at 16 records, raising OVERFLOW (R155). -/
def recorded (s : State) (d : Decision) : State :=
  if s.decisions.length < 16 then { s with decisions := s.decisions ++ [d] }
  else { s with
    decisionOverflows := min 65535 (s.decisionOverflows + 1), flags := { s.flags with overflow := true } }

/-- Slot k's armed field after a denial: cleared under DROP (R145). -/
def retried (s : State) (k : Slot) : State :=
  if (s.car k).retryMode = .drop then { s with cars := s.cars.set k { s.car k with armed := false } } else s

/-- The window of a claim of slot k made from a sense time over an enter distance and a path (R130 to R132): enter time
and clear time, UNBOUNDED at a clear level of 0 or below and at 65,535 ms or more. -/
def windowOf (r : Car) (level : Nat) (sense : TrackTime) (distance path : Nat) : TrackTime × ClearTime :=
  let up := min 255 (level + r.accelMargin)
  let clearDistance := distance + path + r.carLength
  let down := level - r.decelMargin
  let late := (clearDistance * 255000 + (r.vtop * down - 1)) / (r.vtop * down)
  (if up = 0 then sense else sense + BitVec.ofNat 32 (min 65535 (distance * 255000 / (r.vtop * up))),
   if down = 0 ∨ 65535 ≤ late then .unbounded else .bounded (sense + BitVec.ofNat 32 late))

/-- The lapse time set with a clear time (R113). -/
def lapseOf (m : SectionMap) : ClearTime → Option TrackTime
  | .bounded t => some (t + BitVec.ofNat 32 m.exitSlack)
  | .unbounded => none

/-- The claim of a car that has entered a section on a lane, not armed (R122, R133). -/
def enteredClaim (m : SectionMap) (r : Car) (k : Slot) (level : Nat) (lane : Lane) (origin : ClaimOrigin)
    (sense : TrackTime) : Claim :=
  let w := windowOf r level sense m.approach m.straight
  { car := .slot k, kind := if lane = .a then .straightA else .straightB, origin := origin, state := .entered
    sense := sense, enter := w.1, clear := w.2, decideTime := none, exitLane := lane, lapse := lapseOf m w.2 }

/-- Slot j is the lowest of a dirty set (R175). -/
def LowestDirty (dirty : Vector Bool 8) (j : Slot) : Prop := dirty[j] = true ∧ ∀ i : Slot, i < j → dirty[i] = false

/-! ### Denials, grants and cautions -/

/-- Slot k's level at its last report; 0 in a state no run reaches (R118, notes/assumptions/24.md). -/
def levelOf (s : State) (k : Slot) : Nat :=
  match (s.position k).level with
  | some n => n
  | none => 0

/-- The claim that a denial leaves of slot k's request: ENTERED and STRAIGHT on its entry lane, with the clear time and
lapse time of the straight path, all else kept (R145, R133). -/
def refusedClaim (s : State) (m : SectionMap) (k : Slot) (c : Claim) : Claim :=
  let w := windowOf (s.car k) (levelOf s k) c.sense m.approach m.straight
  { c with
    state := .entered
    kind := if c.kind.entryLane = .a then .straightA else .straightB
    decideTime := none
    clear := w.2
    lapse := lapseOf m w.2 }

/-- The GRANTED claims of a section in conflict with a claim, in list order (R138, R153). -/
def lateConflicts (sec : Section) (c : Claim) : List Claim :=
  sec.claims.filter fun g => decide (g.state = .granted) && conflicts sec.map.guard g c

/-- The LATE_CONFLICT records of a claim stored at section a, one for each of them (R153). -/
def lateRecords (s : State) (a : Addr) (sec : Section) (c : Claim) : List Decision :=
  (lateConflicts sec c).map fun g => { plainRecord s a c.car .lateConflict with other := some g.car }

/-- The auto-caution requests of an event's records: LATE_CONFLICT for each such record (R153). -/
def lateSources (ds : List Decision) : List CautionSource :=
  (ds.filter fun d => decide (d.outcome = .lateConflict)).map fun _ => .lateConflict

/-- Records enter the decision queue in their order. -/
def recordedAll (s : State) (ds : List Decision) : State := ds.foldl recorded s

/-- The car records after denials of some slots: armed cleared under DROP (R145, R146). -/
def disarmed (s : State) (denied : Slot → Bool) : Vector Car 8 :=
  Vector.ofFn fun k : Slot =>
    if denied k = true ∧ (s.car k).retryMode = .drop then { s.car k with armed := false } else s.car k

/-- A denial to be made: the slot, the reason, the other car (R145). -/
structure Denial where
  slot : Slot
  reason : DenyReason
  other : Option CarRef

/-- The records of one denial at section a: the DENY record, then the late conflicts of the claim it leaves (R145,
R153). -/
def denialRecords (s : State) (a : Addr) (sec : Section) (d : Denial) : List Decision :=
  denyRecord s a d.slot d.reason d.other ::
    match sec.claimOf d.slot with
    | some c => lateRecords s a sec (refusedClaim s sec.map d.slot c)
    | none => []

/-- The records of denials made at section a, in their order. -/
def denialsRecords (s : State) (a : Addr) (ds : List Denial) : List Decision :=
  match s.sectionAt a with
  | none => []
  | some sec => ds.flatMap (denialRecords s a sec)

/-- A claim after denials: as a denial leaves it where its slot is among those denied, else as it was (R145). -/
def claimAfter (s : State) (m : SectionMap) (ds : List Denial) (c : Claim) : Claim :=
  match ds.find? (fun d => decide (c.car = .slot d.slot)) with
  | some d => refusedClaim s m d.slot c
  | none => c

/-- A section after denials: each claim in its place, and a CLOSING section without a PENDING or GRANTED claim CLOSED
(R145, R117). -/
def afterDenials (s : State) (sec : Section) (ds : List Denial) : Section :=
  let claims := sec.claims.map (claimAfter s sec.map ds)
  { sec with
    claims := claims
    admin :=
      if sec.admin = .closing ∧ ds.length ≠ 0 ∧ ∀ c ∈ claims, c.state ≠ .pending ∧ c.state ≠ .granted then .closed
      else sec.admin }

/-- Denials made at section a in their order: its claims, the records, the retry modes, and nothing else. -/
def denials (s : State) (a : Addr) (ds : List Denial) : State :=
  match s.sectionAt a with
  | none => s
  | some sec =>
    { recordedAll s (denialsRecords s a ds) with
      sections := s.sections.set a (some (afterDenials s sec ds))
      cars := disarmed s fun k => ds.any fun d => decide (d.slot = k) }

/-- The denial of every PENDING request of section a, in list order (R116, R151). -/
def requestsAt (s : State) (reason : DenyReason) (a : Addr) : List Denial :=
  match s.sectionAt a with
  | none => []
  | some sec => sec.claims.filterMap fun c =>
      match c.state, c.car with
      | .pending, .slot k => some { slot := k, reason := reason, other := none }
      | _, _ => none

/-- Every PENDING request of every section denied with STATE, in the order of addresses and lists (R151). -/
def requestsDenied (s : State) : State :=
  allAddrs.foldl (fun u a => denials u a (requestsAt u .state a)) s

/-- The denials of CLOSE_SECTION with NOW; none where the section is CLOSED (R116). -/
def closingDenials (s : State) (a : Addr) : List Denial :=
  match s.sectionAt a with
  | none => []
  | some sec => if sec.admin = .closed then [] else requestsAt s .closed a

/-- Section a closed as CLOSE_SECTION with NOW does (R116): every PENDING request denied with CLOSED, then CLOSING where a
GRANTED claim remains, else CLOSED. -/
def closedNow (s : State) (a : Addr) : State :=
  match s.sectionAt a with
  | none => s
  | some sec =>
    if sec.admin = .closed then s
    else
      { denials s a (closingDenials s a) with
        sections := s.sections.set a (some { afterDenials s sec (closingDenials s a) with
          admin := if ∃ c ∈ sec.claims, c.state = .granted then .closing else .closed }) }

/-- The entry from RUN to CAUTION (R68, R72): with caution lane changes DENY every PENDING request is denied. -/
def cautioned (s : State) (cause : CautionCause) : State :=
  let d := if s.options.cautionLanes = .allow then s else requestsDenied s
  { d with
    track := .caution
    flags := { d.flags with state := true }
    cautionCause := some cause
    cars := Vector.ofFn fun k : Slot => Car.recompute .caution d.cars[k] }

/-- The auto-caution requests of an event taken at its end, in their order: in RUN the first enabled one enters CAUTION,
and the others find it there (R72, notes/assumptions/14.md). -/
def cautionAfter (s : State) (sources : List CautionSource) : State :=
  match sources.find? fun c => s.options.enables c with
  | some c => if s.track = .run then cautioned s c.cause else s
  | none => s

/-- A section is BLIND: OVERFLOW, or an upstream link to an entry that is not LIVE (R115). -/
def Blinded (s : State) (sec : Section) : Prop :=
  sec.overflow = true
    ∨ ∃ link, (sec.map.linkA = some link ∨ sec.map.linkB = some link) ∧ (s.node link.node).status ≠ .live

/-- Slot k's request granted at section a: the THROW queued, the claim GRANTED with the other lane as its exit, the car's
expected lane, the arm of LATCH mode, the GRANT record (R141, R147); held until the car's tail has passed the approach
(R139, R140). -/
def granted (s : State) (a : Addr) (sec : Section) (k : Slot) (c : Claim) : State :=
  let lane := c.kind.entryLane
  let release := (windowOf (s.car k) (levelOf s k) c.sense sec.map.approach 0).2
  let hold := flipperHold sec.map release s.now
  recorded { s with
    throws := s.throws ++
      [{ dest := a, lane := lane, car := k, pullIn := sec.map.pullIn, holdDuty := sec.map.holdDuty, hold := hold.1 }]
    sections := s.sections.set a (some { sec with
      claims := sec.claims.map fun d => if d.car = .slot k then
        { c with state := .granted, exitLane := lane.other, decideTime := none } else d })
    positions := s.positions.set k { s.position k with expectedLane := some lane.other }
    cars := s.cars.set k { s.car k with
      armed := if (s.car k).laneMode = .latch then false else (s.car k).armed } }
    { plainRecord s a (.slot k) .grant with coilCap := hold.2 }

/-- The entry to STANDBY by a change of track state: what every follower makes of it (R63, R78, R89, R99, R106, R118,
R126, R151, R168). -/
def enteredStandby (s : State) : State :=
  let d := requestsDenied s
  let p := if s.track = .halt then pairingAborted s else s
  let r := if s.track = .halt then s.stopBurst.rail else s.rail
  { p with
    track := .standby
    flags := { p.flags with state := true, overflow := d.flags.overflow }
    cautionCause := if s.track = .caution then none else s.cautionCause
    cars := Vector.ofFn fun k : Slot => { d.cars[k] with target := 0, brakeRequest := true, output := 0 }
    rail := { r with power := false, nextStart := none, settleCounter := 0, raildata := none, padfeed := none }
    nodes := Vector.ofFn fun a : Addr =>
      if (s.node a).role = .none then s.node a else { s.node a with status := .unheard, declared := none }
    throws := if s.throwSending then s.throws.take 1 else []
    positions := Vector.replicate 8 Position.absent
    sections := Vector.ofFn fun a : Addr => (s.sectionAt a).map fun sec =>
      { sec with
        admin := if sec.admin = .opened then .opened else .closed
        overflow := false, lastOverflow := none, pointer := s.pointerByMode, claims := [] }
    decisions := []
    decisionOverflows := d.decisionOverflows }

/-! ### Sightings -/

/-- The state in which a report of a LIVE or SILENT node is handled: last heard now, LIVE, and NODE raised at its return
from SILENT (R93, R96, R98). -/
def reported (s : State) (a : Addr) : State :=
  { withNode s a { s.node a with status := .live, lastHeard := some s.now } with
    flags := { s.flags with node := s.flags.node || decide ((s.node a).status = .silent) } }

/-- A claim placed before the first claim of the list with a later enter time (R112, notes/assumptions/15.md). -/
def placed (c : Claim) (l : List Claim) : List Claim :=
  let later (d : Claim) : Bool := decide (0 < (d.enter - c.enter).toInt)
  l.takeWhile (fun d => !later d) ++ c :: l.dropWhile (fun d => !later d)

/-- A claim added to a section: placed, or at 6 claims not stored, counted, with OVERFLOW and its time (R112, R114). -/
def addedTo (now : TrackTime) (sec : Section) (c : Claim) : Section :=
  if sec.claims.length < 6 then { sec with claims := placed c sec.claims }
  else { sec with overflow := true, lastOverflow := some now, overflowCount := min 65535 (sec.overflowCount + 1) }

/-- The claim of slot k that its sighting at node a ends at section b: at another section any claim but a PREDICTED one
(R120), at the node itself any claim where the sighting is an EXIT (R123). -/
def endingClaim (s : State) (a : Addr) (exits : Bool) (k : Slot) (b : Addr) : Option Claim :=
  match s.sectionAt b with
  | none => none
  | some sec =>
    match sec.claimOf k with
    | none => none
    | some c => if (if b = a then exits = true else c.state ≠ .predicted) then some c else none

/-- The records of a claim that a sighting on a lane ends: the denial of a request, then the lane test (R120, R121,
R123, R146). -/
def endingRecords (s : State) (b : Addr) (k : Slot) (lane : Lane) (c : Option Claim) : List Decision :=
  match c with
  | none => []
  | some c =>
    (if c.state = .pending then [denyRecord s b k .tooLate none] else [])
    ++ (if c.exitLane = lane then []
        else [plainRecord s b (.slot k) (if c.state = .granted then .missedThrow else .unexpectedCross)])

/-- The expected-lane test (R121): where no GRANTED claim was compared, a car seen on a lane other than the one its
grant set missed its throw at its last node. -/
def expectedLaneRecords (s : State) (k : Slot) (lane : Lane) (compared : Bool) : List Decision :=
  match (s.position k).expectedLane, (s.position k).lastNode with
  | some l, some n => if compared = false ∧ l ≠ lane then [plainRecord s n (.slot k) .missedThrow] else []
  | _, _ => []

/-- The state after the inference close, the position update and, at an EXIT, the removal of slot k's claim, for a
sighting neither stale nor repeated (R120, R121, R123). -/
def sighted (s : State) (a : Addr) (sensor : Sensor) (lane : Lane) (sense : TrackTime) (k : Slot) : State :=
  let ending := endingClaim s a (decide ((s.node a).role = .sect ∧ sensor = .exit)) k
  let any (p : Claim → Bool) : Bool := allAddrs.any fun b => (ending b).any p
  let order := allAddrs.filter (fun b => decide (b ≠ a)) ++ [a]
  { recordedAll s (order.flatMap (fun b => endingRecords s b k lane (ending b))
      ++ expectedLaneRecords s k lane (any fun c => decide (c.state = .granted))) with
    sections := Vector.ofFn fun b : Addr =>
      if (ending b).isSome then
        (s.sectionAt b).map fun sec =>
          afterRemoval sec (sec.claims.filter fun c => decide (c.car ≠ .slot k))
      else s.sectionAt b
    cars := disarmed s fun j => decide (j = k) && any fun c => decide (c.state = .pending)
    positions := s.positions.set k
      { lastNode := some a, lastLane := some lane, lastSensor := some sensor, lastSeen := some sense
        level := some (s.car k).output, expectedLane := none } }

/-- The entry of slot k at section a, before its arm is read (R122): a new claim is added; a PREDICTED one takes the new
window and keeps its origin; any other is removed as lapsed, with its records, and a new one is added. -/
def enteredSection (s : State) (a : Addr) (sec : Section) (k : Slot) (lane : Lane) (sense : TrackTime) : State :=
  let fresh (origin : ClaimOrigin) := enteredClaim sec.map (s.car k) k (levelOf s k) lane origin sense
  let others := sec.claims.filter fun c => decide (c.car ≠ .slot k)
  match sec.claimOf k with
  | none => { s with sections := s.sections.set a (some (addedTo s.now sec (fresh .sensed))) }
  | some c =>
    if c.state = .predicted then
      { s with sections := s.sections.set a (some { sec with claims := placed (fresh c.origin) others }) }
    else
      { recordedAll s ((if c.state = .pending then [denyRecord s a k .tooLate none] else [])
          ++ [plainRecord s a (.slot k) .lapse]) with
        sections := s.sections.set a (some (addedTo s.now
          (afterRemoval { sec with lapseCount := min 65535 (sec.lapseCount + 1) } others) (fresh .sensed)))
        cars := disarmed s fun j => decide (j = k ∧ c.state = .pending) }

/-- The auto-caution request of the lapse in it. -/
def enteringSources (sec : Section) (k : Slot) : List CautionSource :=
  match sec.claimOf k with
  | some c => if c.state = .predicted then [] else [.lapse]
  | none => []

/-- The PREDICTED claim that a sighting of slot k makes over an upstream link (R124, R133). -/
def predictedClaim (s : State) (m : SectionMap) (k : Slot) (lane : Lane) (sense : TrackTime) (distance : Nat) : Claim :=
  let w := windowOf (s.car k) (levelOf s k) sense (distance + m.approach) m.straight
  { car := .slot k, kind := if lane = .a then .straightA else .straightB, origin := .lookahead, state := .predicted
    sense := sense, enter := w.1, clear := w.2, decideTime := none, exitLane := lane, lapse := lapseOf m w.2 }

/-- The claim that a sighting at node a makes in a section, where its link for the lane names the node (R124). -/
def foreseen (s : State) (a : Addr) (lane : Lane) (sense : TrackTime) (k : Slot) (sec : Section) : Option Claim :=
  match if lane = .a then sec.map.linkA else sec.map.linkB with
  | some link => if link.node = a then some (predictedClaim s sec.map k lane sense link.distance) else none
  | none => none

/-- The section after it: the claim replaced without overflow, or added. -/
def withForeseen (now : TrackTime) (k : Slot) (sec : Section) (c : Claim) : Section :=
  if (sec.claimOf k).isSome then { sec with claims := placed c (sec.claims.filter fun d => decide (d.car ≠ .slot k)) }
  else addedTo now sec c

/-- The late conflicts of the lookahead claims that are stored, in the order of addresses (R124, R153). -/
def lookaheadRecords (s : State) (a : Addr) (lane : Lane) (sense : TrackTime) (k : Slot) : List Decision :=
  allAddrs.flatMap fun b =>
    match s.sectionAt b with
    | none => []
    | some sec =>
      match foreseen s a lane sense k sec with
      | none => []
      | some c => if (sec.claimOf k).isSome ∨ sec.claims.length < 6 then lateRecords s b sec c else []

/-- The lookahead from node a (R124): a claim in every section whose link for the lane names it. -/
def lookedAhead (s : State) (a : Addr) (lane : Lane) (sense : TrackTime) (k : Slot) : State :=
  { recordedAll s (lookaheadRecords s a lane sense k) with
    sections := Vector.ofFn fun b : Addr => (s.sectionAt b).map fun sec =>
      match foreseen s a lane sense k sec with
      | none => sec
      | some c => withForeseen s.now k sec c }

/-- The ANON claim of an entry (R125): enter level 255 and the section's anon clear level over a car of 140 mm at 3000
mm/s. -/
def anonEntered (m : SectionMap) (lane : Lane) (sense : TrackTime) : Claim :=
  let late := ((m.approach + m.straight + 140) * 255000 + (3000 * m.anonClear - 1)) / (3000 * m.anonClear)
  let clear : ClearTime :=
    if m.anonClear = 0 ∨ 65535 ≤ late then .unbounded else .bounded (sense + BitVec.ofNat 32 late)
  { car := .anon, kind := if lane = .a then .straightA else .straightB, origin := .sensed, state := .entered
    sense := sense, enter := sense + BitVec.ofNat 32 (min 65535 (m.approach * 255000 / (3000 * 255)))
    clear := clear, decideTime := none, exitLane := lane, lapse := lapseOf m clear }

/-- The payload check (R91, R92, R197): the kinds 1 to 4 with their payload lengths and codes. -/
def PayloadFits (kind : Byte) (payload : List Byte) : Prop :=
  (kind = 1 ∧ ∃ k, payload = [k] ∧ k.toNat ≤ 2)
  ∨ (kind = 2 ∧ payload.length = 3)
  ∨ (kind = 3 ∧ ∃ o id, payload = [o, id] ∧ o.toNat ≤ 2)
  ∨ (kind = 4 ∧ ∃ k, payload = [k] ∧ k.toNat ≤ 2)

/-! ### The layouts of response data and of the frames the part sends (chapter 12)

Spelled byte by byte from R198 and the owning rules, apart from the definitions the commands use. -/

namespace Layout

/-- A number in two bytes, most significant first (R194). -/
def two (n : Nat) : List Byte := [BitVec.ofNat 8 (n / 256), BitVec.ofNat 8 n]

/-- A track time or HID in four bytes, most significant first (R194). -/
def four (v : BitVec 32) : List Byte :=
  [v.extractLsb' 24 8, v.extractLsb' 16 8, v.extractLsb' 8 8, v.extractLsb' 0 8]

/-- yes, pressed and present are 01h (Table 12-5, notes/assumptions/17.md). -/
def yes (b : Bool) : Byte := if b then 1 else 0

/-- The first of two values is 00h: enabled, asserted (Table 12-5, notes/assumptions/18.md). -/
def first (b : Bool) : Byte := if b then 0 else 1

/-- A slot number 01h..08h. -/
def slot (k : Slot) : Byte := BitVec.ofNat 8 (k.val + 1)

/-- A node address 01h..0Fh. -/
def addr (a : Addr) : Byte := BitVec.ofNat 8 (a.val + 1)

/-- A car or ANON (Table 12-5). -/
def carOrAnon : CarRef → Byte
  | .anon => 0
  | .slot k => slot k

/-- An optional field of a value's width: 01h and the value, or zeros behind 00h (Table 12-5). -/
def opt {α : Type} (width : Nat) (value : α → List Byte) : Option α → List Byte
  | some v => 1 :: value v
  | none => List.replicate (width + 1) 0

/-- Eight event flags or enables: bit 0 STATE, 1 LINK, 2 PAIRING, 3 DECISION, 4 FAULT, 5 NODE, 6 BATT, 7 OVERFLOW
(Table 12-5). -/
def marks (m : EventMask) : Byte :=
  BitVec.ofNat 8 (m.state.toNat + 2 * m.link.toNat + 4 * m.pairing.toNat + 8 * m.decision.toNat + 16 * m.fault.toNat
    + 32 * m.node.toNat + 64 * m.batt.toNat + 128 * m.overflow.toNat)

/-- The six options in the order of R73. -/
def options (o : Options) : List Byte :=
  [if o.cautionLanes = .allow then 0 else 1, first o.handsetWake, if o.pointerMode = .one then 0 else 1,
    first o.autoLapse, first o.autoLateConflict, first o.autoNodeFault]

/-- A car record in the order of Table 1-1, then the watch pending mark (R19, R198). -/
def car (r : Car) : List Byte :=
  opt 4 four r.binding ++ [r.link.code] ++ opt 1 (fun n => [BitVec.ofNat 8 n]) r.lastSeq
  ++ [BitVec.ofNat 8 r.inputs.thr, yes r.inputs.lane, yes r.inputs.brake, yes r.inputs.wake, BitVec.ofNat 8 r.inputs.batt]
  ++ [yes r.lowBattery, BitVec.ofNat 8 r.calLo, BitVec.ofNat 8 r.calHi]
  ++ (List.finRange 9).map (fun i => BitVec.ofNat 8 r.raceCurve[i])
  ++ (List.finRange 9).map (fun i => BitVec.ofNat 8 r.cautionCurve[i])
  ++ [BitVec.ofNat 8 r.speedLimit, BitVec.ofNat 8 r.accelStep, BitVec.ofNat 8 r.decelStep]
  ++ two r.watchTimeout ++ opt 2 two r.pendingWatch
  ++ [BitVec.ofNat 8 r.fadeStep, BitVec.ofNat 8 r.fadeCap, r.laneMode.code, r.retryMode.code, yes r.armed]
  ++ opt 1 (fun n => [BitVec.ofNat 8 n]) r.consoleDrive
  ++ two r.vtop ++ [BitVec.ofNat 8 r.accelMargin, BitVec.ofNat 8 r.decelMargin, BitVec.ofNat 8 r.carLength]
  ++ [BitVec.ofNat 8 r.target, BitVec.ofNat 8 r.output, yes r.brakeRequest, r.storeStatus.code]
  ++ [yes (decide (r.pendingWatch ≠ none))]

/-- A registry entry in the order of R94. -/
def node (n : Node) : List Byte :=
  [n.role.code] ++ opt 1 (fun k => [k.code]) n.declared ++ [n.status.code] ++ opt 4 four n.lastHeard
  ++ opt 1 (fun f => [f.code]) n.fault

/-- The map parameters in the order of R107, the links in the form given. -/
def map (link : Option Link → List Byte) (m : SectionMap) : List Byte :=
  two m.approach ++ two m.crossing ++ two m.straight ++ link m.linkA ++ link m.linkB
  ++ [BitVec.ofNat 8 m.guard, BitVec.ofNat 8 m.lead, BitVec.ofNat 8 m.pullIn, BitVec.ofNat 8 m.holdDuty]
  ++ two m.coilLimit ++ two m.exitSlack ++ [BitVec.ofNat 8 m.anonClear]

/-- An upstream link as SET_SECTION carries it: address and distance, 00h and zeros where absent (R198). That the distance
of an absent link is sent as zeros is the model's choice (notes/assumptions/43.md). -/
def linkInPlace : Option Link → List Byte
  | some l => addr l.node :: two l.distance
  | none => [0, 0, 0]

/-- An upstream link in the optional field class (notes/assumptions/16.md). -/
def linkOptional : Option Link → List Byte := opt 3 fun l => addr l.node :: two l.distance

/-- A clear time: 02h and zeros for UNBOUNDED (Table 12-5). -/
def clear : ClearTime → List Byte
  | .bounded t => 1 :: four t
  | .unbounded => [2, 0, 0, 0, 0]

/-- A claim in the order of R111. -/
def claim (c : Claim) : List Byte :=
  [carOrAnon c.car, c.kind.code, c.origin.code, c.state.code] ++ four c.sense ++ four c.enter ++ clear c.clear
  ++ opt 4 four c.decideTime ++ [c.exitLane.code]

/-- A section record in the order of R127: the map, the admin state, the two blind causes, the time of the last overflow,
the pointer, the two counters, then the count of claims and each claim. -/
def sectionRecord (s : State) (sec : Section) : List Byte :=
  let silent (l : Option Link) : Bool := l.any fun link => decide ((s.node link.node).status ≠ .live)
  map linkOptional sec.map
  ++ [sec.admin.code, yes sec.overflow, yes (silent sec.map.linkA || silent sec.map.linkB)]
  ++ opt 4 four sec.lastOverflow ++ [slot sec.pointer] ++ two sec.lapseCount ++ two sec.overflowCount
  ++ [BitVec.ofNat 8 sec.claims.length] ++ sec.claims.flatMap claim

/-- An entry of the unbound handset list in the order of R29. -/
def unboundEntry (e : UnboundEntry) : List Byte :=
  four e.hid ++ [BitVec.ofNat 8 e.lastSeq] ++ four e.lastHeard ++ [yes e.bind, BitVec.ofNat 8 e.batt]

/-- The pairing mode, AUTO 00h (notes/assumptions/38.md). -/
def pairingMode : PairingMode → List Byte
  | .auto => [0]
  | .slot k => [slot k]

/-- The pairing in the order of R158, then the result in the order of R169 (R170, notes/assumptions/28.md). -/
def pairing (p : Pairing) (r : PairingResult) : List Byte :=
  [p.state.code] ++ opt 1 pairingMode p.mode ++ opt 1 (fun k => [slot k]) p.slot ++ [BitVec.ofNat 8 p.attempt]
  ++ opt 4 four p.candidate ++ two p.ignored
  ++ opt 4 four p.windowExpiry ++ opt 4 four p.verifyExpiry ++ opt 4 four p.confirmExpiry
  ++ (opt 1 (fun k => [slot k]) r.slot ++ opt 4 four r.hid ++ [r.outcome.code, BitVec.ofNat 8 r.attempts]
    ++ two r.ignored ++ [r.store.code])

/-- The pairing parameters in the order of R159. -/
def pairingParams (p : PairingParams) : List Byte :=
  two p.window ++ two p.confirm ++ [BitVec.ofNat 8 p.programRepeat] ++ two p.verifyWait ++ [BitVec.ofNat 8 p.attempts]

/-- A decision record in the order of R154. -/
def decision (d : Decision) : List Byte :=
  four d.time ++ [addr d.addr, carOrAnon d.car, d.outcome.code] ++ opt 1 (fun r => [r.code]) d.reason
  ++ opt 1 (fun c => [carOrAnon c]) d.other ++ [yes d.coilCap]

/-- The last wake: CONSOLE 00h and 00h, HANDSET 01h and the slot (R198). -/
def lastWake : WakeCause → List Byte
  | .console => [0, 0]
  | .handset k => [1, slot k]

/-- READ_STATUS in the order of R74 and R186 (notes/assumptions/28.md). -/
def status (s : State) : List Byte :=
  [s.track.code] ++ opt 1 (fun c => [c.code]) s.cautionCause ++ opt 2 lastWake s.lastWake
  ++ [yes s.railFaultNote, first s.railflt] ++ four s.now ++ two s.rail.frameCount.toNat
  ++ [BitVec.ofNat 8 s.rail.frameInterval, BitVec.ofNat 8 s.rail.settleCount, marks s.eventFlags, marks s.enables]
  ++ [yes (allSlots.any fun k => s.store.bad[k]), BitVec.ofNat 8 s.decisions.length]
  ++ two s.handsetErrors ++ two s.handsetDuplicates ++ two s.nodeErrors ++ two s.strayReports ++ two s.decisionOverflows

/-- A notice frame of Table 12-2: the start byte, the length, the HID, the kind, and the CRC-8 from the length on. -/
def noticeFrame (n : Notice) : List Byte :=
  let kind : Byte := match n.kind with
    | .candidate => 0x00
    | .bound => 0x01
    | .refused => 0x02
  let body : List Byte := 0x05 :: four n.hid ++ [kind]
  0x5A :: body ++ [crc8 body]

/-- A THROW of Table 12-3 from address 0 to its section, under the CRC-8 of all before it. -/
def throwFrame (t : Throw) : List Byte :=
  let body : List Byte := [0x00, addr t.dest, 0x10, if t.lane = .a then 0x00 else 0x01, slot t.car,
    BitVec.ofNat 8 t.pullIn, BitVec.ofNat 8 t.holdDuty] ++ two t.hold
  body ++ [crc8 body]

end Layout

/-- The codes of the enumerations in response data: 00h for the first value of the defining table, counting up; the
outcome and the store status of a pairing result as R198 gives them. -/
structure CodesCountUp : Prop where
  link : [LinkState.none, .silent, .live, .fade, .lost].map LinkState.code = [0, 1, 2, 3, 4]
  lanes : [LaneMode.hold, .latch].map LaneMode.code = [0, 1] ∧ [RetryMode.keep, .drop].map RetryMode.code = [0, 1]
    ∧ [Lane.a, .b].map Lane.code = [0, 1]
  store : [StoreStatus.saved, .pending, .unsaved].map StoreStatus.code = [0, 1, 2]
    ∧ [ResultStore.saved, .pending, .unsaved, .none].map ResultStore.code = [0, 1, 2, 3]
  track : [TrackState.standby, .settle, .halt, .run, .caution].map TrackState.code = [0, 1, 2, 3, 4]
    ∧ [CautionCause.console, .lapse, .lateConflict, .nodeFault].map CautionCause.code = [0, 1, 2, 3]
  nodes : [Role.none, .sect, .gate, .pad].map Role.code = [0, 1, 2, 3]
    ∧ [NodeKind.sect, .gate, .pad].map NodeKind.code = [0, 1, 2]
    ∧ [NodeStatus.unconfigured, .unheard, .live, .silent, .mismatch].map NodeStatus.code = [0, 1, 2, 3, 4]
    ∧ [NodeFault.coilOpen, .coilShort, .sensorBlocked].map NodeFault.code = [0, 1, 2]
  claims : [ClaimKind.straightA, .straightB, .crossAB, .crossBA].map ClaimKind.code = [0, 1, 2, 3]
    ∧ [ClaimOrigin.lookahead, .sensed].map ClaimOrigin.code = [0, 1]
    ∧ [ClaimState.predicted, .entered, .pending, .granted].map ClaimState.code = [0, 1, 2, 3]
    ∧ [AdminState.opened, .closing, .closed].map AdminState.code = [0, 1, 2]
  decisions :
    [DecisionOutcome.grant, .deny, .lapse, .missedThrow, .unexpectedCross, .lateConflict].map DecisionOutcome.code
        = [0, 1, 2, 3, 4, 5]
      ∧ [DenyReason.conflict, .contestLost, .closed, .blind, .state, .tooSlow, .tooLate, .busBusy].map DenyReason.code
        = [0, 1, 2, 3, 4, 5, 6, 7]
  pairing :
    [PairingState.idle, .awaitCar, .programming, .verify, .awaitHandset, .confirm].map PairingState.code
        = [0, 1, 2, 3, 4, 5]
      ∧ [PairingOutcome.none, .bound, .contested, .noSlot, .programFailed, .padLost, .timeout, .aborted].map
          PairingOutcome.code = [0, 1, 2, 3, 4, 5, 6, 7]
  statuses : [Status.ok, .okClamped, .accepted, .busy, .wrongState, .notReady, .noPad, .noRoom, .railFault, .badArg].map
    Status.code = [0x00, 0x01, 0x02, 0x10, 0x11, 0x12, 0x13, 0x14, 0x15, 0x1F]

/-! ### Reset values -/

/-- The values POR and RST give every block (R75 and the tables of R2, R77, R73, R94, R110, R118, R158, R159, R170,
R172, R187, R190). The store status and the bad set before the load, and the cleared result but for its outcome, are the
model's (notes/assumptions/29.md, 39.md, 30.md). -/
structure PorValues (t : State) : Prop where
  cif : t.now = 0 ∧ t.served = false ∧ t.response = none ∧ t.attn = false
    ∧ t.flags = { state := false, link := false, pairing := false, fault := false, node := false, batt := false
                  overflow := false }
    ∧ t.enables = { state := false, link := false, pairing := false, decision := false, fault := false
                    node := false, batt := false, overflow := false }
    ∧ t.softResetDue = false
  hrx : t.receiver = .hunt ∧ t.unbound = [] ∧ (∀ k, t.watchOf k = none) ∧ t.notices = []
    ∧ t.handsetErrors = 0 ∧ t.handsetDuplicates = 0
  cars : ∀ k, t.car k =
    { binding := none, link := .none, lastSeq := none
      inputs := { thr := 0, lane := false, brake := false, wake := false, batt := 7 }
      lowBattery := false, calLo := 8, calHi := 247
      raceCurve := #v[0, 32, 64, 96, 128, 160, 192, 224, 255]
      cautionCurve := #v[0, 12, 24, 36, 48, 60, 72, 84, 96]
      speedLimit := 255, accelStep := 16, decelStep := 255, watchTimeout := 100, pendingWatch := none
      fadeStep := 32, fadeCap := 255, laneMode := .latch, retryMode := .keep, armed := false
      consoleDrive := none, vtop := 3000, accelMargin := 48, decelMargin := 48, carLength := 140
      target := 0, output := 0, brakeRequest := false, storeStatus := .saved }
  rfg : t.rail =
    { frameInterval := 6, settleCount := 32, power := false, nextStart := none, frameCount := 0
      settleCounter := 0, burst := .idle, burstSlot := none, burstRepeat := none, programSent := 0
      raildata := none, padfeed := none }
  tsc : t.track = .standby ∧ t.cautionCause = none ∧ t.lastWake = none ∧ t.railFaultNote = false
    ∧ t.options = { cautionLanes := .deny, handsetWake := false, pointerMode := .one, autoLapse := false
                    autoLateConflict := false, autoNodeFault := false }
    ∧ t.cautionRequests = []
  nbi : (∀ a, t.node a = { role := .none, declared := none, status := .unconfigured, lastHeard := none
                           fault := none })
    ∧ t.throws = [] ∧ t.throwSending = false ∧ t.nodeErrors = 0 ∧ t.strayReports = 0
  sar : (∀ k, t.position k = { lastNode := none, lastLane := none, lastSensor := none, lastSeen := none, level := none
                               expectedLane := none })
    ∧ (∀ a, t.sectionAt a = none) ∧ t.lfsr = 1
    ∧ t.decisions = [] ∧ t.decisionOverflows = 0
  pct : t.pairing = { state := .idle, mode := none, slot := none, attempt := 0, candidate := none, ignored := 0
                      windowExpiry := none, verifyExpiry := none, confirmExpiry := none }
    ∧ t.result = { slot := none, hid := none, outcome := .none, attempts := 0, ignored := 0, store := .none }
    ∧ t.params = { window := 20000, confirm := 500, programRepeat := 10, verifyWait := 500, attempts := 2 }
  bst : t.store.load = .loading ∧ (∀ k : Slot, t.store.dirty[k] = false) ∧ t.store.inFlight = none
    ∧ ∀ k : Slot, t.store.bad[k] = false

/-! ### Invariants -/

/-- The track state's followers agree with it: rail power and frame starts run outside STANDBY alone (R62, R77),
the settle counter is 0 outside SETTLE (R86), a pad burst and a pairing stand in HALT alone (R89, R158). -/
structure TrackFollowers (s : State) : Prop where
  power : s.rail.power = true ↔ s.track ≠ .standby
  starts : s.rail.nextStart.isSome = s.rail.power
  counter : s.track ≠ .settle → s.rail.settleCounter = 0
  burst : s.rail.burst = .active → s.track = .halt
  pairing : s.pairing.state ≠ .idle → s.track = .halt

/-- The lists and queues keep their capacities: unbound handsets 6 (R29), notices 4 (R38), THROW messages 4
(R105), decision records 16 (R155); a THROW is sent only while the queue holds it, no auto-caution request waits between
two events, and a slot waits to be written only behind a write in flight (R175). -/
structure QueuesBounded (s : State) : Prop where
  unbound : s.unbound.length ≤ 6
  notices : s.notices.length ≤ 4
  throws : s.throws.length ≤ 4
  decisions : s.decisions.length ≤ 16
  sending : s.throwSending = true → s.throws ≠ []
  requests : s.cautionRequests = []
  writes : s.store.inFlight = none → ∀ k : Slot, s.store.dirty[k] = false

/-- The registry and the section records agree (R94, R97, R107): a record stands exactly for the addresses of
role SECTION, an entry is UNCONFIGURED exactly without a role, and the limits of the roles are kept. -/
structure RegistryKept (s : State) : Prop where
  records : ∀ a, (s.sectionAt a).isSome = true ↔ (s.node a).role = .sect
  statuses : ∀ a, (s.node a).status = .unconfigured ↔ (s.node a).role = .none
  sectionLimit : (allAddrs.filter fun a => decide ((s.node a).role = .sect)).length ≤ 8
  padLimit : (allAddrs.filter fun a => decide ((s.node a).role = .pad)).length ≤ 1

/-- In STANDBY no section holds a claim, the decision queue is empty and no car has a position (R118, R126,
R155). -/
def StandbyQuiet (s : State) : Prop :=
  s.track = .standby →
    (∀ a sec, s.sectionAt a = some sec → sec.claims = []) ∧ s.decisions = []
      ∧ ∀ k, s.position k = Position.absent

/-- A claim whose fields fit its state (R111). -/
structure ClaimFits (c : Claim) : Prop where
  anon : c.car = .anon → c.state = .entered
  straight : c.state = .predicted ∨ c.state = .entered → c.kind = .straightA ∨ c.kind = .straightB
  cross : c.state = .pending ∨ c.state = .granted → c.kind = .crossAB ∨ c.kind = .crossBA
  decide : c.decideTime.isSome = true ↔ c.state = .pending
  unbounded : c.clear = .unbounded → c.lapse = none
  exit : c.exitLane = if c.state = .granted then c.kind.entryLane.other else c.kind.entryLane

/-- Every claim list holds at most 6 claims, no two of one car slot, each fitting its state (R111, R112). -/
def ClaimListsKept (s : State) : Prop :=
  ∀ a sec, s.sectionAt a = some sec →
    sec.claims.length ≤ 6 ∧ (∀ k, (sec.claims.filter fun c => decide (c.car = .slot k)).length ≤ 1)
      ∧ ∀ c ∈ sec.claims, ClaimFits c

/-- Where no crossing may be granted, no request is PENDING (R143, R151). -/
def RequestsAllowed (s : State) : Prop :=
  s.track ≠ .run → ¬ (s.track = .caution ∧ s.options.cautionLanes = .allow) → NoPending s

/-- A car record within the ranges of Table 1-1, its levels within their bounds (R48, R49), and its link state
fitting its binding (R5). -/
structure CarFits (r : Car) : Prop where
  inputs : r.inputs.thr ≤ 255 ∧ r.inputs.batt ≤ 7 ∧ ∀ n ∈ r.lastSeq, n ≤ 15
  curves : ∀ i : Fin 9, r.raceCurve[i] ≤ 255 ∧ r.cautionCurve[i] ≤ 255
  console : ∀ n ∈ r.consoleDrive, n ≤ 255
  calibration : r.calLo < r.calHi ∧ r.calHi ≤ 255
  limit : r.speedLimit ≤ 255
  steps : (1 ≤ r.accelStep ∧ r.accelStep ≤ 255) ∧ (1 ≤ r.decelStep ∧ r.decelStep ≤ 255)
    ∧ (1 ≤ r.fadeStep ∧ r.fadeStep ≤ 255)
  watch : (20 ≤ r.watchTimeout ∧ r.watchTimeout ≤ 2000) ∧ ∀ n ∈ r.pendingWatch, 20 ≤ n ∧ n ≤ 2000
  motion : (200 ≤ r.vtop ∧ r.vtop ≤ 9000) ∧ r.accelMargin ≤ 255 ∧ r.decelMargin ≤ 255
    ∧ (60 ≤ r.carLength ∧ r.carLength ≤ 255)
  levels : r.output ≤ r.speedLimit ∧ r.target ≤ r.speedLimit
  fading : r.link = .fade → r.consoleDrive = none → r.output ≤ r.fadeCap ∧ r.target ≤ r.fadeCap
  fadeCap : r.fadeCap ≤ 255 ∧ (r.link = .fade → 0 < r.fadeCap)
  unbound : r.binding = none ↔ r.link = .none

/-- Every car record fits, and its watch timer runs exactly in LIVE and FADE (R34). -/
def CarsKept (s : State) : Prop :=
  ∀ k, CarFits (s.car k) ∧ ((s.watchOf k).isSome = true ↔ (s.car k).link = .live ∨ (s.car k).link = .fade)

/-- No identity is bound to two slots (R3); the candidate of a pairing stands in CONFIRM alone and is bound to no
slot but the one being paired (R165); the unbound handset list holds no identity twice and none that is bound
(R29); while the load runs no slot is bound, no pairing stands and the console is not served (R4, R184). -/
structure IdentitiesDistinct (s : State) : Prop where
  bindings : ∀ j k h, (s.car j).binding = some h → (s.car k).binding = some h → j = k
  candidate : ∀ h ∈ s.pairing.candidate, s.pairing.state = .confirm ∧
    ∀ j, (s.car j).binding = some h → s.pairing.slot = some j
  list : (s.unbound.map fun e => e.hid).Nodup
  unbound : ∀ e ∈ s.unbound, ∀ k, (s.car k).binding ≠ some e.hid
  loading : s.store.load = .loading →
    s.served = false ∧ s.pairing.state = .idle ∧ ∀ k, (s.car k).binding = none

end Sys2Proof.Machine
end

