-- ==== Sys2Proof/WellFormed.lean ====
section
/-! DEFINITION. Which terms of `Instr` are commands that can reach the block. -/

namespace Sys2Proof

/-- A console frame's argument bytes are counted in one length byte (R198). -/
def argsWellFormed (args : List Byte) : Bool := decide (args.length ≤ 255)

/-- A command frame is incomplete while it lacks its length byte or an argument byte (R180). -/
def incompleteFrame (bytes : List Byte) : Bool :=
  match bytes with
  | _ :: len :: rest => decide (rest.length < len.toNat)
  | _ => true

/-- A complete handset frame as sent: ten characters, the first the start byte (R20, R195). -/
def handsetFrameForm (bytes : List Byte) : Bool :=
  decide (bytes.length = 10) && (bytes.head? == some 0xA5#8)

/-- The command can reach the block: the arguments of a console command fit the length byte; an unknown
command's code is in no row of Table 12-4; a discarded transaction is incomplete; a handset frame has its
form. Every other operand is in range by its type. -/
def WellFormed (i : Instr) : Bool :=
  match i with
  | .unknownCommand code args => argsWellFormed args && (commandOfCode code args).isNone
  | .transactionDiscard bytes => incompleteFrame bytes
  | .handsetFrame bytes => handsetFrameForm bytes
  | j =>
    match consoleParts j with
    | some (_, args) => argsWellFormed args
    | none => true

end Sys2Proof
end

