-- ==== Sys2Proof/Certificates/Slice0/Obligations.lean ====
section
/-! DEFINITION. The statements about the NX-208 for the provers. -/

section

open Sys2Proof Sys2Proof.Machine Host

/-! ### Commands reach the block -/

/-- One step takes the command at the front of the queue and leaves the rest waiting. The queue is the model's own
(notes/assumptions/1.md). -/
def Obligations.StepTakesFrontCommand : Prop :=
  ∀ (c : Instr) (rest : List Instr) (s : State),
    step { s with pending := c :: rest } = exec c { s with pending := rest }

/-- While POR or RST holds the part, nothing but a reset, the release and the level of RAILFLT is taken (R75); until the
store load completes every console command is answered NOT_READY and changes nothing (R184). That one mark stands for
both causes of the hold is the model's reading (notes/assumptions/11.md). -/
def Obligations.HeldAndUnservedPartsTakeNothing : Prop :=
  (∀ (i : Instr) (s : State), s.held = true →
    i ≠ .powerOnReset → i ≠ .rstPinReset → i ≠ .resetRelease →
    exec i s =
      if i = .railfltAssertion then .next { s with railflt := true }
      else if i = .railfltDeassertion then .next { s with railflt := false }
      else .next s)
  ∧ ∀ (i : Instr) (code : Byte) (args : List Byte) (s : State),
    consoleParts i = some (code, args) → s.held = false → s.served = false →
    exec i s = .next { s with response := some { status := .notReady, data := [] } }

/-- A structural error is answered BAD_ARG and changes nothing (R182): an unknown code, a wrong length, a slot, an
address or a link address out of range, an undefined mode, role, curve set, RELEASE mark, option value or presence mark;
a value that is marked is read, whatever the others are. That UNKNOWN_COMMAND answers so whatever its code byte, and
where the presence marks stand, are the model's choices (notes/assumptions/26.md, 37.md). -/
def Obligations.StructuralErrorsAnswerBadArg : Prop :=
  ∀ (s : State), Served s →
    let refused : Outcome State Fault Refusal := .next { s with response := some { status := .badArg, data := [] } }
    (∀ code args, exec (.unknownCommand code args) s = refused)
    ∧ (∀ i code args n, consoleParts i = some (code, args) → argLength i = some n → args.length ≠ n →
        exec i s = refused)
    ∧ (∀ (b : Byte) rest, b.toNat = 0 ∨ 8 < b.toNat →
        ∀ i ∈ [Instr.setCar (b :: rest), .setCurve (b :: rest), .setWatch (b :: rest), .drive (b :: rest),
          .armLane (b :: rest), .unbind (b :: rest), .readCar (b :: rest)], exec i s = refused)
    ∧ (∀ (b : Byte) rest, b.toNat = 0 ∨ 15 < b.toNat →
        ∀ i ∈ [Instr.setNode (b :: rest), .readNode (b :: rest), .setSection (b :: rest), .openSection (b :: rest),
          .closeSection (b :: rest), .readSection (b :: rest)], exec i s = refused)
    ∧ (∀ (b : Byte), 8 < b.toNat → exec (.openPairing [b]) s = refused)
    ∧ (∀ (a m : Byte), 1 < m.toNat → exec (.closeSection [a, m]) s = refused)
    ∧ (∀ (a r : Byte), 3 < r.toNat → exec (.setNode [a, r]) s = refused)
    ∧ (∀ (k c : Byte) rest, 1 < c.toNat → exec (.setCurve (k :: c :: rest)) s = refused)
    ∧ (∀ (k m : Byte) rest, 1 < m.toNat → exec (.drive (k :: m :: rest)) s = refused)
    ∧ (∀ (m : Byte) rest, 64 ≤ m.toNat → exec (.setOptions (m :: rest)) s = refused)
    ∧ (∀ (m : Byte) rest, 4 ≤ m.toNat → exec (.setRail (m :: rest)) s = refused)
    ∧ (∀ (m : Byte) rest, 32 ≤ m.toNat → exec (.setPairing (m :: rest)) s = refused)
    ∧ (∀ (a m1 : Byte) rest, 16 ≤ m1.toNat → exec (.setCar (a :: m1 :: rest)) s = refused
        ∧ exec (.setSection (a :: m1 :: rest)) s = refused)
    ∧ (∀ m v0 v1 v2 v3 v4 v5 : Byte,
        (∃ x ∈ [(m.getLsbD 0, v0), (m.getLsbD 1, v1), (m.getLsbD 2, v2), (m.getLsbD 3, v3), (m.getLsbD 4, v4),
          (m.getLsbD 5, v5)], x.1 = true ∧ 1 < x.2.toNat) →
        exec (.setOptions [m, v0, v1, v2, v3, v4, v5]) s = refused)
    ∧ (∀ k m1 m0 lo hi lim acc dec fade lane retry w1 w0 up dn len : Byte,
        (m0.getLsbD 6 = true ∧ 1 < lane.toNat) ∨ (m0.getLsbD 7 = true ∧ 1 < retry.toNat) →
        exec (.setCar [k, m1, m0, lo, hi, lim, acc, dec, fade, lane, retry, w1, w0, up, dn, len]) s = refused)
    ∧ (∀ a m1 m0 ap1 ap0 cr1 cr0 st1 st0 la lad1 lad0 lb lbd1 lbd0 gd ld pu du co1 co0 ex1 ex0 an : Byte,
        (m0.getLsbD 3 = true ∧ 15 < la.toNat) ∨ (m0.getLsbD 4 = true ∧ 15 < lb.toNat) →
        exec (.setSection [a, m1, m0, ap1, ap0, cr1, cr0, st1, st0, la, lad1, lad0, lb, lbd1, lbd0, gd, ld, pu, du, co1,
          co0, ex1, ex0, an]) s = refused)

/-- The bytes of a well-formed console command spell it, whatever is clocked after it; bytes that end before the
command is complete are a discarded transaction (R179, R180, R198). On data out the part sends FFh while the command
and the turnaround are clocked, then status, length and data of the response, then FFh; FFh alone for a command not
completed and while it is held; the bytes not clocked are lost. -/
def Obligations.CommandFramesSpellCommands : Prop :=
  (∀ (i : Instr) (frame tail : List Byte), WellFormed i = true → consoleFrame i = some frame →
    decodeConsole (frame ++ tail) = i
    ∧ (∀ (t : State) (r : Response), t.held = false → t.response = some r →
        let line := List.replicate (frame.length + 1) 0xFF#8 ++ r.status.code :: byte1 r.data.length :: r.data
        t.dataOut (frame ++ tail)
          = (line ++ List.replicate tail.length 0xFF#8).take (frame.length + tail.length))
    ∧ (∀ t : State, t.held = true →
        t.dataOut (frame ++ tail) = List.replicate (frame.length + tail.length) 0xFF#8))
  ∧ ∀ bytes : List Byte, incompleteFrame bytes = true → decodeConsole bytes = .transactionDiscard bytes
    ∧ ∀ t : State, t.dataOut bytes = List.replicate bytes.length 0xFF#8

/-! ### Track commands -/

/-- WAKE (R64): in STANDBY to SETTLE with rail power on and every car stopped, or RAIL_FAULT where RAILFLT is
asserted; in any other state OK with nothing changed. -/
def Obligations.WakeCommandOutcome : Prop :=
  ∀ (s : State), Served s → StandbyQuiet s →
    (s.track = .standby → s.railflt = false →
      exec (.wake []) s = .next { s with
        track := .settle
        flags := { s.flags with state := true }
        lastWake := some .console
        railFaultNote := false
        rail := settledRail s.rail s.now
        cars := Vector.ofFn fun k : Slot => { s.cars[k] with
          target := 0, brakeRequest := true, output := 0 }
        response := some { status := .ok, data := [1] } })
    ∧ (s.track = .standby → s.railflt = true →
      exec (.wake []) s = .next { s with response := some { status := .railFault, data := [0] } })
    ∧ (s.track ≠ .standby →
      exec (.wake []) s = .next { s with response := some { status := .ok, data := [s.track.code] } })

/-- SLEEP (R65, R66): from HALT or SETTLE to STANDBY, and on to SETTLE for the lowest slot where a wake is held;
OK with no change in STANDBY, WRONG_STATE in RUN and CAUTION. -/
def Obligations.SleepCommandOutcome : Prop :=
  ∀ (s : State), Served s → ClaimListsKept s →
    (s.track = .halt ∨ s.track = .settle → ¬ WakeHeld s →
      exec (.sleep []) s = .next { enteredStandby s with response := some { status := .ok, data := [0] } })
    ∧ (s.track = .halt ∨ s.track = .settle → s.options.handsetWake = true → s.railflt = false →
      ∀ k, HoldsWake s k → (∀ j, j < k → ¬ HoldsWake s j) →
      exec (.sleep []) s = .next { enteredStandby s with
        track := .settle, lastWake := some (.handset k), railFaultNote := false
        rail := settledRail (enteredStandby s).rail s.now, response := some { status := .ok, data := [1] } })
    ∧ (s.track = .standby → exec (.sleep []) s = .next { s with response := some { status := .ok, data := [0] } })
    ∧ (s.track = .run ∨ s.track = .caution →
      exec (.sleep []) s = .next { s with response := some { status := .wrongState, data := [s.track.code] } })

/-- HALT (R67): from RUN or CAUTION every PENDING request of every section is denied with STATE, its claim as R145
leaves it and its records queued in the order of addresses and lists (R151), and every car is stopped; frames, rail power
and all else stand. OK with no change in HALT, NOT_READY in SETTLE and STANDBY. -/
def Obligations.HaltCommandOutcome : Prop :=
  ∀ (s : State), Served s → ClaimListsKept s →
    (s.track = .run ∨ s.track = .caution →
      let d := requestsDenied s
      exec (.halt []) s = .next { d with
        track := .halt
        flags := { d.flags with state := true }
        cautionCause := if s.track = .caution then none else s.cautionCause
        cars := Vector.ofFn fun k : Slot => { d.cars[k] with target := 0, brakeRequest := true, output := 0 }
        response := some { status := .ok, data := [2] } })
    ∧ (s.track = .halt → exec (.halt []) s = .next { s with response := some { status := .ok, data := [2] } })
    ∧ (s.track = .settle ∨ s.track = .standby →
      exec (.halt []) s = .next { s with response := some { status := .notReady, data := [s.track.code] } })

/-- GO (R67): from HALT or CAUTION to RUN, every car recomputed for RUN; leaving HALT stops the pad burst and aborts
a pairing in progress with its result and notices (R89, R168, R169). -/
def Obligations.GoCommandOutcome : Prop :=
  ∀ (s : State), Served s →
    (s.track = .halt →
      let p := pairingAborted s
      exec (.go []) s = .next { p with
        track := .run
        flags := { p.flags with state := true }
        cars := Vector.ofFn fun k : Slot => Car.recompute .run s.cars[k]
        rail := if s.rail.burst = .active then { s.rail with
            burst := .idle, burstSlot := none, burstRepeat := none, programSent := 0, padfeed := none }
          else s.rail
        response := some { status := .ok, data := [3] } })
    ∧ (s.track = .caution →
      exec (.go []) s = .next { s with
        track := .run, flags := { s.flags with state := true }, cautionCause := none
        cars := Vector.ofFn fun k : Slot => Car.recompute .run s.cars[k]
        response := some { status := .ok, data := [3] } })
    ∧ (s.track = .run → exec (.go []) s = .next { s with response := some { status := .ok, data := [3] } })
    ∧ (s.track = .settle ∨ s.track = .standby →
      exec (.go []) s = .next { s with response := some { status := .notReady, data := [s.track.code] } })

/-- CAUTION (R68): from RUN with the cause CONSOLE and every car recomputed for CAUTION, no car stopped. With caution
lane changes DENY every PENDING request of every section is denied with STATE (R145, R151), with ALLOW they stand;
nothing else changes. WRONG_STATE elsewhere. -/
def Obligations.CautionCommandOutcome : Prop :=
  ∀ (s : State), Served s → ClaimListsKept s →
    (s.track = .run →
      let d := if s.options.cautionLanes = .deny then requestsDenied s else s
      exec (.caution []) s = .next { d with
        track := .caution, flags := { d.flags with state := true }, cautionCause := some .console
        cars := Vector.ofFn fun k : Slot => Car.recompute .caution d.cars[k]
        response := some { status := .ok, data := [4] } })
    ∧ (s.track ≠ .run →
      exec (.caution []) s = .next { s with response := some { status := .wrongState, data := [s.track.code] } })

/-! ### Configuration commands -/

/-- SET_OPTIONS (R73): each option given takes its value, the others keep theirs, and the response carries all six. A
change from ALLOW to DENY in CAUTION denies every PENDING request of every section with STATE (R145, R151); nothing else
changes. The response spells the options one byte each in their order (R198). The codes of enabled and disabled, and
where the presence marks stand, are the model's readings (notes/assumptions/18.md, 37.md). -/
def Obligations.SetOptionsReplacesGivenOptions : Prop :=
  ∀ (s : State) (m v0 v1 v2 v3 v4 v5 : Byte), Served s → ClaimListsKept s → m.toNat < 64 →
    (∀ x ∈ [(m.getLsbD 0, v0), (m.getLsbD 1, v1), (m.getLsbD 2, v2), (m.getLsbD 3, v3), (m.getLsbD 4, v4),
      (m.getLsbD 5, v5)], x.1 = true → x.2.toNat ≤ 1) →
    let o : Options :=
      { cautionLanes := if m.getLsbD 0 then (if v0 = 0 then .allow else .deny) else s.options.cautionLanes
        handsetWake := if m.getLsbD 1 then decide (v1 = 0) else s.options.handsetWake
        pointerMode := if m.getLsbD 2 then (if v2 = 0 then .one else .random) else s.options.pointerMode
        autoLapse := if m.getLsbD 3 then decide (v3 = 0) else s.options.autoLapse
        autoLateConflict := if m.getLsbD 4 then decide (v4 = 0) else s.options.autoLateConflict
        autoNodeFault := if m.getLsbD 5 then decide (v5 = 0) else s.options.autoNodeFault }
    let turned := s.track = .caution ∧ s.options.cautionLanes = .allow ∧ o.cautionLanes = .deny
    let d := if turned then requestsDenied s else s
    exec (.setOptions [m, v0, v1, v2, v3, v4, v5]) s
      = .next { d with options := o, response := some { status := .ok, data := Layout.options o } }

/-- SET_RAIL and SET_PAIRING (R80, R159): each setting given is clamped to its range and replaces the old one, the
response spells every setting in its order (R198), and nothing else changes. Where the presence marks stand is the model's choice
(notes/assumptions/37.md). -/
def Obligations.RailAndPairingSettingsClamped : Prop :=
  ∀ (s : State), Served s →
    (∀ m i c : Byte, m.toNat < 4 →
      let interval := if m.getLsbD 0 then max 4 (min 20 i.toNat) else s.rail.frameInterval
      let count := if m.getLsbD 1 then max 8 c.toNat else s.rail.settleCount
      let moved := (m.getLsbD 0 = true ∧ interval ≠ i.toNat) ∨ (m.getLsbD 1 = true ∧ count ≠ c.toNat)
      exec (.setRail [m, i, c]) s = .next { s with
        rail := { s.rail with frameInterval := interval, settleCount := count }
        response := some
          { status := if moved then .okClamped else .ok, data := [BitVec.ofNat 8 interval, BitVec.ofNat 8 count] } })
    ∧ ∀ m w1 w0 c1 c0 rep v1 v0 att : Byte, m.toNat < 32 →
      let w := w1.toNat * 256 + w0.toNat
      let c := c1.toNat * 256 + c0.toNat
      let v := v1.toNat * 256 + v0.toNat
      let p : PairingParams :=
        { window := if m.getLsbD 0 then max 5000 (min 60000 w) else s.params.window
          confirm := if m.getLsbD 1 then max 100 (min 2000 c) else s.params.confirm
          programRepeat := if m.getLsbD 2 then max 4 (min 32 rep.toNat) else s.params.programRepeat
          verifyWait := if m.getLsbD 3 then max 200 (min 2000 v) else s.params.verifyWait
          attempts := if m.getLsbD 4 then max 1 (min 3 att.toNat) else s.params.attempts }
      let moved := (m.getLsbD 0 = true ∧ p.window ≠ w) ∨ (m.getLsbD 1 = true ∧ p.confirm ≠ c)
        ∨ (m.getLsbD 2 = true ∧ p.programRepeat ≠ rep.toNat) ∨ (m.getLsbD 3 = true ∧ p.verifyWait ≠ v)
        ∨ (m.getLsbD 4 = true ∧ p.attempts ≠ att.toNat)
      exec (.setPairing [m, w1, w0, c1, c0, rep, v1, v0, att]) s = .next { s with
        params := p
        response := some { status := if moved then .okClamped else .ok, data := Layout.pairingParams p } }

/-! ### Cars -/

/-- SET_CAR (R16): each parameter given is clamped and applied, the calibration as a pair, armed follows a change of
lane mode (R10), the car is recomputed where calibration or speed limit is given (R41); nothing else changes. Where the
presence marks stand is the model's choice (notes/assumptions/37.md). -/
def Obligations.SetCarAppliesGivenParameters : Prop :=
  ∀ (s : State) (k : Slot) (m1 m0 lo hi lim acc dec fade lane retry w1 w0 up dn len : Byte),
    Served s → m1.toNat < 16 →
    (m0.getLsbD 6 = true → lane.toNat ≤ 1) → (m0.getLsbD 7 = true → retry.toNat ≤ 1) →
    let r := s.car k
    let v := w1.toNat * 256 + w0.toNat
    let givenLo := if m0.getLsbD 0 then lo.toNat else r.calLo
    let givenHi := if m0.getLsbD 1 then hi.toNat else r.calHi
    let newLo := min 254 givenLo
    let newHi := max (newLo + 1) givenHi
    let mode : LaneMode := if m0.getLsbD 6 then (if lane = 0 then .hold else .latch) else r.laneMode
    let r' : Car := { r with
      calLo := newLo
      calHi := newHi
      speedLimit := if m0.getLsbD 2 then lim.toNat else r.speedLimit
      accelStep := if m0.getLsbD 3 then max 1 acc.toNat else r.accelStep
      decelStep := if m0.getLsbD 4 then max 1 dec.toNat else r.decelStep
      fadeStep := if m0.getLsbD 5 then max 1 fade.toNat else r.fadeStep
      laneMode := mode
      retryMode := if m0.getLsbD 7 then (if retry = 0 then .keep else .drop) else r.retryMode
      armed :=
        if r.laneMode = .latch ∧ mode = .hold then
          decide (r.link = .live ∧ r.consoleDrive = none ∧ r.inputs.lane = true)
        else r.armed
      vtop := if m1.getLsbD 0 then max 200 (min 9000 v) else r.vtop
      accelMargin := if m1.getLsbD 1 then up.toNat else r.accelMargin
      decelMargin := if m1.getLsbD 2 then dn.toNat else r.decelMargin
      carLength := if m1.getLsbD 3 then max 60 len.toNat else r.carLength }
    let moved := newLo ≠ givenLo ∨ newHi ≠ givenHi ∨ (m0.getLsbD 3 = true ∧ acc = 0)
      ∨ (m0.getLsbD 4 = true ∧ dec = 0) ∨ (m0.getLsbD 5 = true ∧ fade = 0)
      ∨ (m1.getLsbD 0 = true ∧ ¬ (200 ≤ v ∧ v ≤ 9000)) ∨ (m1.getLsbD 3 = true ∧ len.toNat < 60)
    exec (.setCar [slotCode k, m1, m0, lo, hi, lim, acc, dec, fade, lane, retry, w1, w0, up, dn, len]) s
      = .next { s with
          cars := s.cars.set k
            (if m0.getLsbD 0 ∨ m0.getLsbD 1 ∨ m0.getLsbD 2 then Car.recompute s.track r' else r')
          response := some { status := if moved then .okClamped else .ok, data := [] } }

/-- SET_CURVE (R17) replaces the curve named and recomputes the car; SET_WATCH (R8) sets the clamped timeout at once
in NONE and SILENT and leaves it pending in LIVE, FADE and LOST. Nothing else changes. -/
def Obligations.CurveAndWatchSettings : Prop :=
  ∀ (s : State) (k : Slot), Served s →
    (∀ p0 p1 p2 p3 p4 p5 p6 p7 p8 : Byte,
      let points : Curve := #v[p0.toNat, p1.toNat, p2.toNat, p3.toNat, p4.toNat, p5.toNat, p6.toNat, p7.toNat,
        p8.toNat]
      exec (.setCurve [slotCode k, 0, p0, p1, p2, p3, p4, p5, p6, p7, p8]) s = .next { s with
          cars := s.cars.set k (Car.recompute s.track { s.car k with raceCurve := points })
          response := some { status := .ok, data := [] } }
      ∧ exec (.setCurve [slotCode k, 1, p0, p1, p2, p3, p4, p5, p6, p7, p8]) s = .next { s with
          cars := s.cars.set k (Car.recompute s.track { s.car k with cautionCurve := points })
          response := some { status := .ok, data := [] } })
    ∧ ∀ t1 t0 : Byte,
      let ms := t1.toNat * 256 + t0.toNat
      let set := max 20 (min 2000 ms)
      exec (.setWatch [slotCode k, t1, t0]) s = .next { s with
        cars := s.cars.set k
          (if (s.car k).link = .none ∨ (s.car k).link = .silent then
            { s.car k with watchTimeout := set, pendingWatch := none }
          else { s.car k with pendingWatch := some set })
        response := some { status := if set = ms then .ok else .okClamped, data := [] } }

/-- DRIVE (R12) sets or releases console drive, clears armed where console drive becomes present or absent, and
recomputes the car; ARM_LANE (R13) toggles armed under console drive and is refused without. Nothing else changes. -/
def Obligations.DriveAndArmLane : Prop :=
  ∀ (s : State) (k : Slot) (level : Byte), Served s →
    exec (.drive [slotCode k, 0, level]) s = .next { s with
        cars := s.cars.set k (Car.recompute s.track { s.car k with
          consoleDrive := some level.toNat
          armed := if (s.car k).consoleDrive = none then false else (s.car k).armed })
        response := some { status := .ok, data := [] } }
    ∧ exec (.drive [slotCode k, 1, level]) s = .next { s with
        cars := s.cars.set k (Car.recompute s.track { s.car k with
          consoleDrive := none
          armed := if (s.car k).consoleDrive = none then (s.car k).armed else false })
        response := some { status := .ok, data := [] } }
    ∧ ((s.car k).consoleDrive ≠ none → exec (.armLane [slotCode k]) s = .next { s with
        cars := s.cars.set k { s.car k with armed := !(s.car k).armed }
        response := some { status := .ok, data := [] } })
    ∧ ((s.car k).consoleDrive = none → exec (.armLane [slotCode k]) s
        = .next { s with response := some { status := .wrongState, data := [] } })

/-- UNBIND (R18, R3, R173, R175): the record takes the values of a change of binding, the watch timer stops, a store
write of the erased record is requested, and the write of the lowest dirty slot begins where none is in flight; no other
slot and no other block changes. -/
def Obligations.UnbindErasesBinding : Prop :=
  ∀ (s : State) (k : Slot), Served s →
    ∃ t, exec (.unbind [slotCode k]) s = .next t
      ∧ t.car k = Car.recompute s.track (unboundRecord (s.car k))
      ∧ t.watchOf k = none
      ∧ (∀ j, j ≠ k → t.car j = s.car j ∧ t.watchOf j = s.watchOf j)
      ∧ (s.store.inFlight ≠ none → t.store = { s.store with dirty := s.store.dirty.set k true })
      ∧ (s.store.inFlight = none → ∀ j, LowestDirty (s.store.dirty.set k true) j →
          t.store = { s.store with
            dirty := (s.store.dirty.set k true).set j false
            inFlight := some { slot := j, hid := (t.car j).binding } })
      ∧ t = { s with
          cars := t.cars, watch := t.watch, store := t.store, response := some { status := .ok, data := [] } }

/-- WIPE_BINDINGS (R178): in HALT and STANDBY a pairing in progress is aborted with its result and notices, every binding
goes with the values of a change of binding, and eight writes are requested, the lowest slot's begun at once; refused
elsewhere. That a slot already unbound is recomputed with the others is the model's choice (notes/assumptions/41.md). -/
def Obligations.WipeBindingsErasesAll : Prop :=
  ∀ (s : State), Served s →
    (s.track = .halt ∨ s.track = .standby →
      ∃ t, exec (.wipeBindings []) s = .next t
        ∧ (∀ k, t.car k = Car.recompute s.track (unboundRecord (s.car k)) ∧ t.watchOf k = none)
        ∧ (s.store.inFlight ≠ none → t.store = { s.store with dirty := Vector.replicate 8 true })
        ∧ (s.store.inFlight = none → t.store = { s.store with
              dirty := (Vector.replicate 8 true).set 0 false, inFlight := some { slot := 0, hid := none } })
        ∧ t = { pairingAborted s with
            cars := t.cars, watch := t.watch, store := t.store, response := some { status := .ok, data := [] } })
    ∧ (s.track ≠ .halt → s.track ≠ .standby →
      exec (.wipeBindings []) s = .next { s with response := some { status := .wrongState, data := [] } })

/-! ### Reads -/

/-- The read commands answer OK (READ_SECTION of an address without a record WRONG_STATE) with their records spelled byte
by byte, and change nothing but the response (R19, R33, R101, R127, R170, R186, R198): READ_CAR in the order of Table
1-1, READ_NODE of R94, READ_SECTION of R127 with each claim of R111, READ_PAIRING of R158 and R169, READ_UNBOUND of R29,
READ_STATUS of R74 and R186; an absent field is zeros behind 00h, an enumeration counts up from 00h. Field orders and
codings that the spec leaves to inference are the model's (notes/assumptions/16.md, 17.md, 18.md, 28.md, 38.md). -/
def Obligations.ReadCommandsChangeNothing : Prop :=
  CodesCountUp ∧ ∀ (s : State), Served s →
    let answers (i : Instr) (st : Status) (data : List Byte) : Prop :=
      exec i s = .next { s with response := some { status := st, data := data } }
    (∀ k, answers (.readCar [Layout.slot k]) .ok (Layout.car (s.car k)) ∧ (Layout.car (s.car k)).length = 59)
    ∧ (∀ a, answers (.readNode [Layout.addr a]) .ok (Layout.node (s.node a))
        ∧ (Layout.node (s.node a)).length = 11)
    ∧ (∀ a sec, s.sectionAt a = some sec →
        answers (.readSection [Layout.addr a]) .ok (Layout.sectionRecord s sec)
        ∧ (Layout.sectionRecord s sec).length = 37 + 23 * sec.claims.length)
    ∧ (∀ a, s.sectionAt a = none → answers (.readSection [Layout.addr a]) .wrongState [])
    ∧ answers (.readPairing []) .ok (Layout.pairing s.pairing s.result)
    ∧ (Layout.pairing s.pairing s.result).length = 40
    ∧ answers (.readUnbound []) .ok
        (BitVec.ofNat 8 s.unbound.length :: s.unbound.flatMap Layout.unboundEntry)
    ∧ answers (.readStatus []) .ok (Layout.status s) ∧ (Layout.status s).length = 30

/-! ### Nodes and sections -/

/-- SET_NODE (R97, R100): NO_ROOM for a ninth SECTION or a second PAD; the role already held clears the fault alone; a
new role gives the entry its values of R100, makes a section record with the defaults of R107 or removes it, with every
PENDING request of the record denied with CLOSED and its retry mode applied (R126, R146), drops the waiting THROW
messages of a record that goes, and ends with PAD_LOST a pairing whose pad it takes before the car is verified (R164).
That the requests are denied in list order is the model's choice (notes/assumptions/36.md). -/
def Obligations.SetNodeChangesRole : Prop :=
  ∀ (s : State) (a : Addr) (role : Role), Served s → RegistryKept s → ClaimListsKept s →
    let others := (allAddrs.filter fun b => b ≠ a ∧ (s.node b).role = role).length
    let full := (role = .sect ∧ 8 ≤ others) ∨ (role = .pad ∧ 1 ≤ others)
    let old := s.node a
    (full → exec (.setNode [addrCode a, role.code]) s
      = .next { s with response := some { status := .noRoom, data := [] } })
    ∧ (¬ full → old.role = role → exec (.setNode [addrCode a, role.code]) s = .next { s with
        nodes := s.nodes.set a { old with fault := none }
        response := some { status := .ok, data := [] } })
    ∧ (¬ full → old.role ≠ role →
        let requests := requestsAt s .closed a
        let created : Section :=
          { map := { approach := 250, crossing := 600, straight := 500, linkA := none, linkB := none, guard := 40
                     lead := 30, pullIn := 20, holdDuty := 40, coilLimit := 1000, exitSlack := 500, anonClear := 64 }
            admin := .opened, overflow := false, lastOverflow := none, pointer := s.pointerByMode, claims := []
            lapseCount := 0, overflowCount := 0 }
        let u : State := { recordedAll s (requests.map fun d => denyRecord s a d.slot .closed none) with
          nodes := s.nodes.set a
            { role := role, declared := none, lastHeard := none, fault := none
              status := if role = .none then .unconfigured else .unheard }
          sections := s.sections.set a (if role = .sect then some created else none)
          throws := if old.role = .sect then
              (if s.throwSending then s.throws.take 1 else [])
                ++ (if s.throwSending then s.throws.drop 1 else s.throws).filter fun x => x.dest ≠ a
            else s.throws
          cars := disarmed s fun k => requests.any fun d => decide (d.slot = k)
          response := some { status := .ok, data := [] } }
        exec (.setNode [addrCode a, role.code]) s
          = .next (if old.role = .pad ∧ old.status = .live ∧ NeedsPad s.pairing.state then pairingEnded u .padLost
              else u))

/-- SET_SECTION (R109, R107): each map parameter given is clamped and replaces the old one, the response spells the
map as it stands after (R198), and no claim moves; WRONG_STATE for an address without a record. The coding of a link in
the response, that the distance behind an absent link is not read and is answered as zeros, and where the presence marks stand are the model's
(notes/assumptions/16.md, 42.md, 43.md, 37.md). -/
def Obligations.SetSectionReplacesMap : Prop :=
  ∀ (s : State) (a : Addr) (m1 m0 ap1 ap0 cr1 cr0 st1 st0 la lad1 lad0 lb lbd1 lbd0 gd ld pu du co1 co0 ex1 ex0
      an : Byte), Served s → m1.toNat < 16 →
    (m0.getLsbD 3 = true → la.toNat ≤ 15) → (m0.getLsbD 4 = true → lb.toNat ≤ 15) →
    let i := Instr.setSection [addrCode a, m1, m0, ap1, ap0, cr1, cr0, st1, st0, la, lad1, lad0, lb, lbd1, lbd0,
      gd, ld, pu, du, co1, co0, ex1, ex0, an]
    (s.sectionAt a = none → exec i s = .next { s with response := some { status := .wrongState, data := [] } })
    ∧ ∀ sec, s.sectionAt a = some sec →
      let pick (mark : Bool) (lo hi new old : Nat) : Nat := if mark then max lo (min hi new) else old
      let moves (mark : Bool) (lo hi new : Nat) : Prop := mark = true ∧ ¬ (lo ≤ new ∧ new ≤ hi)
      let ap := ap1.toNat * 256 + ap0.toNat
      let cr := cr1.toNat * 256 + cr0.toNat
      let st := st1.toNat * 256 + st0.toNat
      let da := lad1.toNat * 256 + lad0.toNat
      let db := lbd1.toNat * 256 + lbd0.toNat
      let co := co1.toNat * 256 + co0.toNat
      let ex := ex1.toNat * 256 + ex0.toNat
      let map : SectionMap :=
        { approach := pick (m0.getLsbD 0) 0 2000 ap sec.map.approach
          crossing := pick (m0.getLsbD 1) 100 1500 cr sec.map.crossing
          straight := pick (m0.getLsbD 2) 100 1500 st sec.map.straight
          linkA := if m0.getLsbD 3 then (addrOfByte la).map fun n => { node := n, distance := min 30000 da }
            else sec.map.linkA
          linkB := if m0.getLsbD 4 then (addrOfByte lb).map fun n => { node := n, distance := min 30000 db }
            else sec.map.linkB
          guard := pick (m0.getLsbD 5) 0 255 gd.toNat sec.map.guard
          lead := pick (m0.getLsbD 6) 5 200 ld.toNat sec.map.lead
          pullIn := pick (m0.getLsbD 7) 5 100 pu.toNat sec.map.pullIn
          holdDuty := pick (m1.getLsbD 0) 10 100 du.toNat sec.map.holdDuty
          coilLimit := pick (m1.getLsbD 1) 100 2000 co sec.map.coilLimit
          exitSlack := pick (m1.getLsbD 2) 50 2000 ex sec.map.exitSlack
          anonClear := pick (m1.getLsbD 3) 1 255 an.toNat sec.map.anonClear }
      let moved := moves (m0.getLsbD 0) 0 2000 ap ∨ moves (m0.getLsbD 1) 100 1500 cr ∨ moves (m0.getLsbD 2) 100 1500 st
        ∨ (la ≠ 0 ∧ moves (m0.getLsbD 3) 0 30000 da) ∨ (lb ≠ 0 ∧ moves (m0.getLsbD 4) 0 30000 db)
        ∨ moves (m0.getLsbD 6) 5 200 ld.toNat ∨ moves (m0.getLsbD 7) 5 100 pu.toNat ∨ moves (m1.getLsbD 0) 10 100 du.toNat
        ∨ moves (m1.getLsbD 1) 100 2000 co ∨ moves (m1.getLsbD 2) 50 2000 ex ∨ moves (m1.getLsbD 3) 1 255 an.toNat
      exec i s = .next { s with
        sections := s.sections.set a (some { sec with map := map })
        response := some { status := if moved then .okClamped else .ok, data := Layout.map Layout.linkInPlace map } }

/-- OPEN_SECTION and CLOSE_SECTION (R116, R117): OPEN clears the node's fault; HOLD leaves the requests and closes to
CLOSING or CLOSED; NOW denies every PENDING request of the section with CLOSED first, its claim as R145 leaves it, all
other claims and fields kept, and changes no CLOSED section; WRONG_STATE without a record. The order of the denials and
when an auto-caution request of theirs is taken are the model's (notes/assumptions/35.md, 14.md). -/
def Obligations.OpenAndCloseSection : Prop :=
  ∀ (s : State) (a : Addr), Served s →
    (s.sectionAt a = none →
      ∀ i ∈ [Instr.openSection [addrCode a], .closeSection [addrCode a, 0], .closeSection [addrCode a, 1]],
        exec i s = .next { s with response := some { status := .wrongState, data := [] } })
    ∧ ∀ sec, s.sectionAt a = some sec →
      exec (.openSection [addrCode a]) s = .next { s with
          sections := s.sections.set a (some { sec with admin := .opened })
          nodes := s.nodes.set a { s.node a with fault := none }
          response := some { status := .ok, data := [] } }
      ∧ exec (.closeSection [addrCode a, 0]) s = .next { s with
          sections := s.sections.set a (some { sec with
            admin := if sec.admin = .opened then
                (if ∃ c ∈ sec.claims, c.state = .pending ∨ c.state = .granted then .closing else .closed)
              else sec.admin })
          response := some { status := .ok, data := [] } }
      ∧ (ClaimListsKept s → s.cautionRequests = [] → exec (.closeSection [addrCode a, 1]) s
          = .next { cautionAfter (closedNow s a) (lateSources (denialsRecords s a (closingDenials s a))) with
              response := some { status := .ok, data := [] } })

/-! ### Pairing commands and expiries -/

/-- OPEN_PAIRING (R160): BUSY, WRONG_STATE, NO_PAD in that order; otherwise ACCEPTED, AWAIT_CAR with the named slot or
none under AUTO, the window expiry set, the last result kept. -/
def Obligations.OpenPairingStartsOrRefuses : Prop :=
  ∀ (s : State) (mode : PairingMode), Served s →
    let arg : Byte := match mode with
      | .auto => 0
      | .slot k => slotCode k
    let live := ∃ a, (s.node a).role = .pad ∧ (s.node a).status = .live
    let answer (st : Status) : Outcome State Fault Refusal :=
      .next { s with response := some { status := st, data := [] } }
    (s.pairing.state ≠ .idle → exec (.openPairing [arg]) s = answer .busy)
    ∧ (s.pairing.state = .idle → s.track ≠ .halt → exec (.openPairing [arg]) s = answer .wrongState)
    ∧ (s.pairing.state = .idle → s.track = .halt → ¬ live → exec (.openPairing [arg]) s = answer .noPad)
    ∧ (s.pairing.state = .idle → s.track = .halt → live → exec (.openPairing [arg]) s = .next { s with
        pairing :=
          { state := .awaitCar
            mode := some mode
            slot := match mode with
              | .auto => none
              | .slot k => some k
            attempt := 0, candidate := none, ignored := 0
            windowExpiry := some (s.now + BitVec.ofNat 32 s.params.window)
            verifyExpiry := none, confirmExpiry := none }
        response := some { status := .accepted, data := [] } })

/-- CLOSE_PAIRING and the window expiry (R168, R169): a pairing in progress ends ABORTED or TIMEOUT, with its result
written, REFUSED sent to a candidate, the burst of PROGRAMMING stopped and PAIRING raised; otherwise nothing changes.
That an expiry not reached changes nothing is the model's reading (notes/assumptions/4.md). That a time exactly 2^31 ms
away counts as reached is the model's choice (notes/assumptions/40.md). -/
def Obligations.PairingEndedFromOutside : Prop :=
  ∀ (s : State),
    let ended (o : PairingOutcome) : State := { s with
      pairing := Pairing.idle
      result := { slot := s.pairing.slot, hid := s.pairing.candidate, outcome := o, attempts := s.pairing.attempt
                  ignored := s.pairing.ignored, store := .none }
      rail := if s.pairing.state = .programming then s.stopBurst.rail else s.rail
      notices := match s.pairing.candidate with
        | some h => if s.notices.length < 4 then s.notices ++ [{ hid := h, kind := .refused }] else s.notices
        | none => s.notices
      flags := { s.flags with pairing := true } }
    (Served s → s.pairing.state ≠ .idle →
      exec (.closePairing []) s = .next { ended .aborted with response := some { status := .ok, data := [] } })
    ∧ (Served s → s.pairing.state = .idle →
      exec (.closePairing []) s = .next { s with response := some { status := .ok, data := [] } })
    ∧ (Running s → s.pairing.state ≠ .idle → expired s.now s.pairing.windowExpiry = true →
      exec .pairingWindowExpiry s = .next (ended .timeout))
    ∧ (Running s → s.pairing.state = .idle ∨ expired s.now s.pairing.windowExpiry = false →
      exec .pairingWindowExpiry s = .next s)

/-- The verify expiry in VERIFY (R163) is a failed attempt: a new burst below the attempts limit, else PROGRAM_FAILED.
The confirm expiry in CONFIRM (R167) commits: the binding, the unbound list, the store write, the result BOUND and the
BOUND notice; expiries of other states or not yet reached change nothing. That an expiry not reached changes nothing is
the model's reading (notes/assumptions/4.md). That a time exactly 2^31 ms away counts as reached is the model's choice
(notes/assumptions/40.md). -/
def Obligations.VerifyAndConfirmExpiries : Prop :=
  ∀ (s : State), Running s →
    (s.pairing.state ≠ .verify ∨ expired s.now s.pairing.verifyExpiry = false → exec .verifyExpiry s = .next s)
    ∧ (s.pairing.state = .verify → expired s.now s.pairing.verifyExpiry = true → s.track = .halt →
        ∀ k, s.pairing.slot = some k → s.pairing.attempt < s.params.attempts →
        exec .verifyExpiry s = .next { s with
          pairing := { s.pairing with
            state := .programming, attempt := s.pairing.attempt + 1, verifyExpiry := none }
          rail := { s.rail with
            burst := .active, burstSlot := some k, burstRepeat := some s.params.programRepeat, programSent := 0
            padfeed := none } })
    ∧ (s.pairing.state = .verify → expired s.now s.pairing.verifyExpiry = true →
        s.params.attempts ≤ s.pairing.attempt → exec .verifyExpiry s = .next { s with
          pairing := Pairing.idle
          result := { slot := s.pairing.slot, hid := s.pairing.candidate, outcome := .programFailed
                      attempts := s.pairing.attempt, ignored := s.pairing.ignored, store := .none }
          flags := { s.flags with pairing := true } })
    ∧ (s.pairing.state ≠ .confirm ∨ expired s.now s.pairing.confirmExpiry = false → exec .confirmExpiry s = .next s)
    ∧ (s.pairing.state = .confirm → expired s.now s.pairing.confirmExpiry = true →
        ∀ k h, s.pairing.slot = some k → s.pairing.candidate = some h →
        ∃ t, exec .confirmExpiry s = .next t
          ∧ t.car k = Car.recompute s.track { unboundRecord (s.car k) with binding := some h, link := .silent }
          ∧ t.watchOf k = none ∧ (∀ j, j ≠ k → t.car j = s.car j ∧ t.watchOf j = s.watchOf j)
          ∧ t.unbound = s.unbound.filter (fun e => e.hid ≠ h)
          ∧ t.pairing = Pairing.idle
          ∧ t.result = { slot := some k, hid := some h, outcome := .bound, attempts := s.pairing.attempt
                         ignored := s.pairing.ignored, store := .pending }
          ∧ t.notices = (if s.notices.length < 4 then s.notices ++ [{ hid := h, kind := .bound }] else s.notices)
          ∧ t.flags = { s.flags with pairing := true }
          ∧ (s.store.inFlight ≠ none → t.store = { s.store with dirty := s.store.dirty.set k true })
          ∧ (s.store.inFlight = none → ∀ j, LowestDirty (s.store.dirty.set k true) j →
              t.store = { s.store with
                dirty := (s.store.dirty.set k true).set j false
                inFlight := some { slot := j, hid := (t.car j).binding } })
          ∧ t = { s with
              cars := t.cars, watch := t.watch, unbound := t.unbound, pairing := t.pairing, result := t.result
              notices := t.notices, flags := t.flags, store := t.store })

/-! ### Race, status and reset commands -/

/-- NEW_RACE (R157) and READ_DECISION (R156): in HALT the decision queue is emptied, every pointer set by mode and
every section's counters set to 0; a read takes the oldest record out and returns it behind the count left,
its fields spelled in the order of R154 (R198). That the count stands first and how the COIL_CAP mark is coded are the
model's readings (notes/assumptions/28.md, 17.md). -/
def Obligations.NewRaceAndReadDecision : Prop :=
  ∀ (s : State), Served s →
    (s.track = .halt → exec (.newRace []) s = .next { s with
        sections := Vector.ofFn fun a : Addr => s.sections[a].map fun sec =>
          { sec with pointer := s.pointerByMode, lapseCount := 0, overflowCount := 0 }
        decisions := []
        response := some { status := .ok, data := [] } })
    ∧ (s.track ≠ .halt →
      exec (.newRace []) s = .next { s with response := some { status := .wrongState, data := [] } })
    ∧ (s.decisions = [] → exec (.readDecision []) s = .next { s with response := some { status := .ok, data := [0] } })
    ∧ ∀ d rest, s.decisions = d :: rest → exec (.readDecision []) s = .next { s with
        decisions := rest
        response := some { status := .ok, data := BitVec.ofNat 8 rest.length :: Layout.decision d } }

/-- ACK_EVENTS (R189) returns the flags and then clears the latched ones marked; SET_EVENT_ENABLE (R190) sets all
eight enables; DECISION is present while the queue holds a record (R188); ATTN follows flags and enables (R191). -/
def Obligations.EventFlagsEnablesAndAttn : Prop :=
  ∀ (s : State), 
    (∀ m : Byte, Served s → exec (.ackEvents [m]) s = .next { s with
      flags :=
        { state := s.flags.state && !m.getLsbD 0, link := s.flags.link && !m.getLsbD 1
          pairing := s.flags.pairing && !m.getLsbD 2, fault := s.flags.fault && !m.getLsbD 4
          node := s.flags.node && !m.getLsbD 5, batt := s.flags.batt && !m.getLsbD 6
          overflow := s.flags.overflow && !m.getLsbD 7 }
      response := some { status := .ok, data := [Layout.marks s.eventFlags] } })
    ∧ (∀ m : Byte, Served s → exec (.setEventEnable [m]) s = .next { s with
      enables :=
        { state := m.getLsbD 0, link := m.getLsbD 1, pairing := m.getLsbD 2, decision := m.getLsbD 3
          fault := m.getLsbD 4, node := m.getLsbD 5, batt := m.getLsbD 6, overflow := m.getLsbD 7 }
      response := some { status := .ok, data := [m] } })
    ∧ s.eventFlags =
        { state := s.flags.state, link := s.flags.link, pairing := s.flags.pairing
          decision := decide (s.decisions ≠ []), fault := s.flags.fault, node := s.flags.node
          batt := s.flags.batt, overflow := s.flags.overflow }
    ∧ (s.attn = true ↔ ∃ i, i < 8 ∧ s.eventFlags.code.getLsbD i = true ∧ s.enables.code.getLsbD i = true)

/-- CLEAR_COUNTERS (R192): every counter of the part is 0 after it, and nothing else changes. -/
def Obligations.ClearCountersZeroesAll : Prop :=
  ∀ (s : State), Served s →
    exec (.clearCounters []) s = .next { s with
      handsetErrors := 0, handsetDuplicates := 0, nodeErrors := 0, strayReports := 0, decisionOverflows := 0
      sections := Vector.ofFn fun a : Addr => s.sections[a].map fun sec =>
        { sec with lapseCount := 0, overflowCount := 0 }
      pairing := { s.pairing with ignored := 0 }
      response := some { status := .ok, data := [] } }

/-- RESET changes nothing but the mark and is answered OK (R193); the soft reset at the end of its transaction gives
what changes during operation its reset value and keeps configuration, store, enables and LFSR (R76); a discarded
transaction changes nothing (R180). The mark of a due soft reset, the response field and the cleared result are the
model's readings (notes/assumptions/12.md, 13.md, 30.md). -/
def Obligations.ResetCommandAndSoftReset : Prop :=
  ∀ (s : State),
    (Served s → exec (.reset []) s
      = .next { s with softResetDue := true, response := some { status := .ok, data := [] } })
    ∧ (∀ bytes, exec (.transactionDiscard bytes) s = .next s)
    ∧ (Running s → s.softResetDue = false → exec .softReset s = .next s)
    ∧ (Running s → s.softResetDue = true → exec .softReset s = .next { s with
        softResetDue := false, now := 0, response := none
        flags := { state := false, link := false, pairing := false, fault := false, node := false, batt := false
                   overflow := false }
        receiver := .hunt, unbound := [], watch := Vector.replicate 8 none, notices := []
        handsetErrors := 0, handsetDuplicates := 0
        cars := Vector.ofFn fun k : Slot => { s.cars[k] with
          link := if s.cars[k].binding = none then .none else .silent
          lastSeq := none, inputs := { thr := 0, lane := false, brake := false, wake := false, batt := 7 }
          lowBattery := false, pendingWatch := none, fadeCap := 255, armed := false, consoleDrive := none
          target := 0, output := 0, brakeRequest := false }
        rail :=
          { frameInterval := s.rail.frameInterval, settleCount := s.rail.settleCount, power := false
            nextStart := none, frameCount := 0, settleCounter := 0, burst := .idle, burstSlot := none
            burstRepeat := none, programSent := 0, raildata := none, padfeed := none }
        track := .standby, cautionCause := none, lastWake := none, railFaultNote := false, cautionRequests := []
        nodes := Vector.ofFn fun a : Addr =>
          { role := s.nodes[a].role, declared := none, lastHeard := none, fault := none
            status := if s.nodes[a].role = .none then .unconfigured else .unheard }
        throws := [], throwSending := false, nodeErrors := 0, strayReports := 0
        positions := Vector.replicate 8 Position.absent
        sections := Vector.ofFn fun a : Addr => s.sections[a].map fun sec =>
          { map := sec.map, admin := .opened, overflow := false, lastOverflow := none, pointer := s.pointerByMode
            claims := [], lapseCount := 0, overflowCount := 0 }
        decisions := [], decisionOverflows := 0, pairing := Pairing.idle, result := PairingResult.cleared })

/-- POR and RST (R75, R177) hold the part at its POR values with the binding records kept, but for a record whose
write they cut; the release leaves the POR values with the load running; the queue and the level of RAILFLT stand.
State.reset holds those values, out of the hold. The hold mark, the response field, the moment of State.reset, the form of
a cut record, the level of RAILFLT over a reset, the store status and the bad set before the load and the cleared result
are the model's (notes/assumptions/8.md, 9.md, 10.md, 11.md, 13.md, 29.md, 30.md, 39.md). -/
def Obligations.PowerOnAndPinReset : Prop :=
  ∀ (s : State),
    (∃ t, exec .powerOnReset s = .next t ∧ exec .rstPinReset s = .next t ∧ PorValues t ∧ t.held = true
      ∧ t.pending = s.pending ∧ t.railflt = s.railflt
      ∧ ∀ k : Slot, t.store.records[k] =
          if s.store.inFlight.map (fun w => w.slot) = some k then .damaged else s.store.records[k])
    ∧ (s.held = true → s.store.inFlight = none → ∃ t, exec .resetRelease s = .next t ∧ PorValues t ∧ t.held = false
        ∧ t.pending = s.pending ∧ t.railflt = s.railflt ∧ t.store.records = s.store.records)
    ∧ (s.held = false → exec .resetRelease s = .next s)
    ∧ PorValues State.reset ∧ State.reset.held = false

/-- The completion of the store load (R4, R174, R184): each slot takes the HID of its good record that no lower slot's
good record holds, is SAVED or UNSAVED, the HIDs bound leave the unbound list, FAULT is raised if a record is bad.
That a completion with no load running changes nothing, and that a slot that stays unbound is recomputed too, are the
model's (notes/assumptions/4.md, 34.md). -/
def Obligations.StoreLoadBindsSlots : Prop :=
  ∀ (s : State), Running s →
    (s.store.load = .ready → exec .storeLoadCompletion s = .next s)
    ∧ (s.store.load = .loading →
      let rec? (k : Slot) : Option (Option Hid) := readRecord k s.store.records[k]
      let good (k : Slot) : Prop := rec? k = some none
        ∨ ∃ h, rec? k = some (some h) ∧ ∀ j, j < k → rec? j ≠ some (some h)
      ∃ t, exec .storeLoadCompletion s = .next t ∧ t.served = true ∧ t.store.load = .ready
        ∧ (∀ k h, rec? k = some (some h) → (∀ j, j < k → rec? j ≠ some (some h)) →
            t.car k = Car.recompute s.track { unboundRecord (s.car k) with
              binding := some h, link := .silent, storeStatus := .saved })
        ∧ (∀ k, rec? k = some none → t.car k = Car.recompute s.track { unboundRecord (s.car k) with
            storeStatus := .saved })
        ∧ (∀ k, ¬ good k → t.car k = Car.recompute s.track { unboundRecord (s.car k) with
            storeStatus := .unsaved })
        ∧ (∀ k : Slot, t.store.bad[k] = true ↔ ¬ good k)
        ∧ (∀ e, e ∈ t.unbound ↔ e ∈ s.unbound ∧ ∀ k, (t.car k).binding ≠ some e.hid)
        ∧ (t.flags.fault = true ↔ s.flags.fault = true ∨ ∃ k, ¬ good k)
        ∧ t = { s with
            served := true, cars := t.cars, watch := Vector.replicate 8 none, unbound := t.unbound
            flags := { s.flags with fault := t.flags.fault }
            store := { s.store with load := .ready, bad := t.store.bad } })

/-! ### Handset Link -/

/-- A frame of a bound handset (R22 to R27): a repeated SEQ is counted and changes nothing else; any other is applied to
the record, restarts the watch timer and raises LINK and BATT as given; WAKE in STANDBY with handset wake enabled and
RAILFLT deasserted also wakes the track, with BIND pressed or not: no pairing stands in STANDBY to take the offer. -/
def Obligations.AcceptedAndDuplicateFrames : Prop :=
  ∀ (s : State) (k : Slot) (f : HandsetFrame), Running s → IdentitiesDistinct s → s.receiver = .hunt → FrameFits f →
    (s.car k).binding = some f.hid →
    let wakes := f.wake = true ∧ s.track = .standby ∧ s.options.handsetWake = true ∧ s.railflt = false
    ((s.car k).lastSeq = some f.seq → exec (.handsetFrame (handsetBytes f)) s
      = .next { s with handsetDuplicates := min 65535 (s.handsetDuplicates + 1) })
    ∧ ((s.car k).lastSeq ≠ some f.seq → f.bind = false → ¬ wakes →
      exec (.handsetFrame (handsetBytes f)) s = .next (accepted s k f))
    ∧ ((s.car k).lastSeq ≠ some f.seq → (f.bind = true → s.pairing.state = .idle) → wakes → StandbyQuiet s →
      exec (.handsetFrame (handsetBytes f)) s = .next { accepted s k f with
        track := .settle, lastWake := some (.handset k), railFaultNote := false
        rail := settledRail s.rail s.now
        flags := { (accepted s k f).flags with state := true }
        cars := Vector.ofFn fun j : Slot => { (accepted s k f).cars[j] with
          target := 0, brakeRequest := true, output := 0 } })

/-- A frame with BIND pressed is offered to the pairing (R28, R165, R166): in AWAIT_HANDSET an unbound handset or the
one bound to the slot becomes candidate; in CONFIRM another such handset ends the pairing CONTESTED with two REFUSED
notices; a handset bound elsewhere is counted; in every other state, and from the candidate, nothing follows. WAKE may
be pressed too, where it does not wake the track: in an unbound handset's frame it never does. -/
def Obligations.BindOffersDriveThePairing : Prop :=
  ∀ (s : State) (owner : Option Slot) (f : HandsetFrame), Running s → s.receiver = .hunt → FrameFits f →
    f.bind = true →
    (∀ j, owner = some j → ¬ (f.wake = true ∧ s.track = .standby ∧ s.options.handsetWake = true ∧ s.railflt = false)) →
    (∀ j, (s.car j).binding = some f.hid ↔ owner = some j) →
    (∀ j, owner = some j → (s.car j).lastSeq ≠ some f.seq) →
    let u : State := match owner with
      | some j => accepted s j f
      | none => heard s f
    let eligible := owner = none ∨ owner = s.pairing.slot
    let run := exec (.handsetFrame (handsetBytes f)) s
    (s.pairing.state = .awaitHandset → eligible → run = .next { u with
        pairing := { s.pairing with
          state := .confirm, candidate := some f.hid
          confirmExpiry := some (s.now + BitVec.ofNat 32 s.params.confirm) }
        notices := if s.notices.length < 4 then s.notices ++ [{ hid := f.hid, kind := .candidate }] else s.notices })
    ∧ (s.pairing.state = .awaitHandset ∨ (s.pairing.state = .confirm ∧ s.pairing.candidate ≠ some f.hid) →
        ¬ eligible →
        run = .next { u with pairing := { s.pairing with ignored := min 65535 (s.pairing.ignored + 1) } })
    ∧ (s.pairing.state = .confirm → s.pairing.candidate = some f.hid → run = .next u)
    ∧ (s.pairing.state = .confirm → ∀ h, s.pairing.candidate = some h → h ≠ f.hid → eligible →
        run = .next { u with
          pairing := Pairing.idle
          result := { slot := s.pairing.slot, hid := some h, outcome := .contested, attempts := s.pairing.attempt
                      ignored := s.pairing.ignored, store := .none }
          notices := (s.notices ++ ([⟨h, .refused⟩, ⟨f.hid, .refused⟩] : List Notice)).take
            (max 4 s.notices.length)
          flags := { u.flags with pairing := true } })
    ∧ (s.pairing.state ≠ .awaitHandset → s.pairing.state ≠ .confirm → run = .next u)

/-- A frame of an unbound handset (R30): a listed handset moves to the front with the frame's values, a new one enters
at the front, and a full list loses its back entry; without BIND nothing else changes. -/
def Obligations.UnboundFramesKeepTheList : Prop :=
  ∀ (s : State) (f : HandsetFrame), Running s → IdentitiesDistinct s → QueuesBounded s → s.receiver = .hunt →
    FrameFits f → f.bind = false → (∀ j, (s.car j).binding ≠ some f.hid) →
    ∃ l, exec (.handsetFrame (handsetBytes f)) s = .next { s with unbound := l }
      ∧ ((∃ e ∈ s.unbound, e.hid = f.hid) → l = heardEntry s f :: s.unbound.filter fun e => e.hid ≠ f.hid)
      ∧ ((∀ e ∈ s.unbound, e.hid ≠ f.hid) → s.unbound.length < 6 → l = heardEntry s f :: s.unbound)
      ∧ ((∀ e ∈ s.unbound, e.hid ≠ f.hid) → s.unbound.length = 6 → l = heardEntry s f :: s.unbound.dropLast)

/-- The receiver (R20, R21): in HUNT only a start byte with its stop bit begins a frame; in IN_FRAME a wrong length, a
missing stop bit, a gap, a wrong CRC-8 or an invalid identity discards the frame with one count; other characters are
collected, and the one that completes a frame brings it as HANDSET_FRAME does. That HANDSET_FRAME and
HANDSET_CONTINUITY_TIMEOUT stand for the receiver's observations is the model's reading (notes/assumptions/19.md,
20.md). -/
def Obligations.ReceiverCollectsAndDiscards : Prop :=
  ∀ (s : State), Running s →
    let discarded : Outcome State Fault Refusal :=
      .next { s with receiver := .hunt, handsetErrors := min 65535 (s.handsetErrors + 1) }
    (s.receiver = .hunt → ∀ c stop, exec (.handsetCharacter c stop) s =
      if c = 0xA5 ∧ stop = true then .next { s with receiver := .inFrame [] } else .next s)
    ∧ (s.receiver = .hunt → exec .handsetContinuityTimeout s = .next s)
    ∧ (∀ l, s.receiver = .inFrame l →
      exec .handsetContinuityTimeout s = discarded
      ∧ (∀ c, exec (.handsetCharacter c false) s = discarded)
      ∧ (l = [] → ∀ c, exec (.handsetCharacter c true) s =
          if c = 0x07 then .next { s with receiver := .inFrame [c] } else discarded)
      ∧ (0 < l.length → l.length < 8 → ∀ c, exec (.handsetCharacter c true) s
          = .next { s with receiver := .inFrame (l ++ [c]) })
      ∧ (l.length = 8 → ∀ c, c ≠ crc8 l → exec (.handsetCharacter c true) s = discarded)
      ∧ (∀ c (f : HandsetFrame), l ++ [c] = (handsetBytes f).drop 1 →
          exec (.handsetCharacter c true) s = exec (.handsetFrame (handsetBytes f)) { s with receiver := .hunt }))
    ∧ (s.receiver = .hunt → ∀ h3 h2 h1 h0 b t v c : Byte, c ≠ crc8 [0x07, h3, h2, h1, h0, b, t, v] →
      exec (.handsetFrame [0xA5, 0x07, h3, h2, h1, h0, b, t, v, c]) s = discarded)
    ∧ (s.receiver = .hunt → ∀ f : HandsetFrame, f.hid = 0 ∨ f.hid = 0xFFFFFFFF#32 →
      exec (.handsetFrame (handsetBytes f)) s = discarded)

/-- Completions and list timers: a notice sent leaves the queue (R38); a THROW starts where one waits and leaves the
queue at its end (R105); an aged entry leaves the unbound list (R31); a reached overflow expiry removes OVERFLOW
(R114). Nothing else changes. The transmit lines carry the notice at the front of its queue, and the THROW at the
front of its queue while it is sent, spelled by Tables 12-2 and 12-3 with every unused bit 0 (R195 to R197); nothing
else is sent on them. That an event with nothing due changes nothing is the model's reading
(notes/assumptions/4.md, 22.md). That a time exactly 2^31 ms away counts as reached is the model's choice
(notes/assumptions/40.md). -/
def Obligations.TransmissionsAndListTimers : Prop :=
  ∀ (s : State), Running s →
    exec .noticeCompletion s = .next { s with notices := s.notices.drop 1 }
    ∧ (s.throws = [] → exec .throwTransmitStart s = .next s)
    ∧ (s.throws ≠ [] → exec .throwTransmitStart s = .next { s with throwSending := true })
    ∧ (s.throwSending = true → exec .throwCompletion s
        = .next { s with throws := s.throws.drop 1, throwSending := false })
    ∧ (s.throwSending = false → exec .throwCompletion s = .next s)
    ∧ (∀ h, ∃ l, exec (.unboundAgeOut h) s = .next { s with unbound := l }
        ∧ l.Sublist s.unbound
        ∧ ∀ e, e ∈ l ↔ e ∈ s.unbound ∧ ¬ (e.hid = h ∧ Reached s.now (e.lastHeard + 3000)))
    ∧ (∀ a sec t, s.sectionAt a = some sec → sec.lastOverflow = some t → Reached s.now (t + 3000) →
        exec (.overflowExpiry a) s = .next { s with
          sections := s.sections.set a (some { sec with overflow := false, lastOverflow := none }) })
    ∧ (∀ a, (∀ sec t, s.sectionAt a = some sec → sec.lastOverflow = some t → ¬ Reached s.now (t + 3000)) →
        exec (.overflowExpiry a) s = .next s)
    ∧ (s.notices = [] → s.noticeLine = none)
    ∧ (∀ n rest, s.notices = n :: rest → s.noticeLine = some (Layout.noticeFrame n))
    ∧ (s.throwSending = false ∨ s.throws = [] → s.busLine = none)
    ∧ (∀ m rest, s.throwSending = true → s.throws = m :: rest → s.busLine = some (Layout.throwFrame m))

/-- A watch timer's expiry (R35, R36): in LIVE the fade cap becomes the output level, and the link FADE or, at level 0,
LOST; in FADE the cap falls by the fade step, to LOST at 0; the timer restarts or stops, LINK is raised at a change of
link, the car is recomputed; a timer stopped or not reached does nothing. That an expiry not reached changes nothing is
the model's reading (notes/assumptions/4.md). That a time exactly 2^31 ms away counts as reached is the model's choice
(notes/assumptions/40.md). -/
def Obligations.WatchExpiryFadesTheLink : Prop :=
  ∀ (s : State) (k : Slot), Running s →
    let r := s.car k
    let cap := r.fadeCap - r.fadeStep
    let restarted := some (s.now + BitVec.ofNat 32 (nextTimeout r))
    ((∀ t, s.watchOf k = some t → ¬ Reached s.now t) → exec (.watchExpiry k) s = .next s)
    ∧ ∀ t, s.watchOf k = some t → Reached s.now t →
      (r.link = .live → 0 < r.output → exec (.watchExpiry k) s = .next { s with
          cars := s.cars.set k (Car.recompute s.track { r with
            link := .fade, fadeCap := r.output, armed := false, watchTimeout := nextTimeout r, pendingWatch := none })
          watch := s.watch.set k restarted
          flags := { s.flags with link := true } })
      ∧ (r.link = .live → r.output = 0 → exec (.watchExpiry k) s = .next { s with
          cars := s.cars.set k (Car.recompute s.track { r with link := .lost, fadeCap := 0, armed := false })
          watch := s.watch.set k none
          flags := { s.flags with link := true } })
      ∧ (r.link = .fade → 0 < cap → exec (.watchExpiry k) s = .next { s with
          cars := s.cars.set k (Car.recompute s.track { r with
            fadeCap := cap, watchTimeout := nextTimeout r, pendingWatch := none })
          watch := s.watch.set k restarted })
      ∧ (r.link = .fade → cap = 0 → exec (.watchExpiry k) s = .next { s with
          cars := s.cars.set k (Car.recompute s.track { r with link := .lost, fadeCap := 0, armed := false })
          watch := s.watch.set k none
          flags := { s.flags with link := true } })

/-! ### Rails and time -/

/-- A frame start that is due (R54, R57 to R59, R79, R81 to R86, R88): every car slews, its word is formed from its
record or blanked, the count goes up, the settle counter down in SETTLE, an active burst begins a program frame, the
next start is set; one that is not due changes nothing. That a frame start not due changes nothing, and that the rails
show the last frame begun, are the model's readings (notes/assumptions/4.md, 21.md, 33.md). That a time exactly 2^31 ms
away counts as reached is the model's choice (notes/assumptions/40.md). -/
def Obligations.FrameStartFormsTheFrame : Prop :=
  ∀ (s : State), Running s →
    let due := s.rail.power = true ∧ ∃ t, s.rail.nextStart = some t ∧ Reached s.now t
    let burst := s.rail.burst = .active ∧ ∃ k n, s.rail.burstSlot = some k ∧ s.rail.burstRepeat = some n
      ∧ s.rail.programSent < n
    (¬ due → exec .frameStart s = .next s)
    ∧ (due → ∃ t f, exec .frameStart s = .next t ∧ t.rail.raildata = some f
        ∧ (∀ k, t.car k = { s.car k with
            output := if s.track.stopped then 0 else stepped (s.car k) })
        ∧ (∀ k : Slot, Stopped s.track → f.words[k] = 0xA0#8)
        ∧ (∀ k : Slot, ¬ Stopped s.track → f.words[k] = carWord ((t.car k).output / 8)
            (decide ((t.car k).brakeRequest = true ∧ (t.car k).output < 8)) (t.car k).armed)
        ∧ f.status = withParity (byte1 ((match s.track with
            | .run => 1
            | .caution => 2
            | _ => 0) + 4 * ((s.rail.frameCount.toNat + 1) % 16)))
        ∧ (burst → ∀ k, s.rail.burstSlot = some k →
            t.rail.padfeed = some (programFrame k) ∧ t.rail.programSent = s.rail.programSent + 1)
        ∧ (¬ burst → t.rail.padfeed = s.rail.padfeed ∧ t.rail.programSent = s.rail.programSent)
        ∧ t = { s with
            cars := t.cars
            rail := { s.rail with
              frameCount := s.rail.frameCount + 1, raildata := some f
              settleCounter := if s.track = .settle then s.rail.settleCounter - 1 else s.rail.settleCounter
              padfeed := t.rail.padfeed, programSent := t.rail.programSent
              nextStart := some (s.now + BitVec.ofNat 32 s.rail.frameInterval) } })

/-- The words of the rails and the pad (R199): the fields of a car word and of the status word in their bits, an even
number of one bits in each, the program word as the slot and its complement; and their order on RAILDATA and PADFEED:
sixteen one bits and a zero bit, then each word bit 0 first, the car words in slot order before the status word, the id
before its complement. -/
def Obligations.RailAndPadWordsCarryTheirFields : Prop :=
  (∀ code brake lane, code < 32 →
    let w := carWord code brake lane
    w.toNat % 32 = code ∧ w.getLsbD 5 = brake ∧ w.getLsbD 6 = lane ∧ onesOf w % 2 = 0)
  ∧ carWord 0 true false = 0xA0#8 ∧ carWord 15 false true = 0xCF#8
  ∧ (∀ t (n : BitVec 16), let w := statusWord t n
      w.toNat % 4 = (match t with
        | .run => 1
        | .caution => 2
        | _ => 0) ∧ w.toNat / 4 % 16 = n.toNat % 16 ∧ w.getLsbD 6 = false ∧ onesOf w % 2 = 0)
  ∧ (∀ k, let p := programFrame k
      p.id.toNat % 128 = slotNumber k ∧ p.complement.toNat % 128 = 127 - slotNumber k
        ∧ onesOf p.id % 2 = 0 ∧ onesOf p.complement % 2 = 0)
  ∧ (let sync : List Bool := List.replicate 16 true ++ [false]
    let word (b : Byte) : List Bool :=
      [b.getLsbD 0, b.getLsbD 1, b.getLsbD 2, b.getLsbD 3, b.getLsbD 4, b.getLsbD 5, b.getLsbD 6, b.getLsbD 7]
    (∀ f : RailFrame, f.bits = sync ++ word f.words[0] ++ word f.words[1] ++ word f.words[2] ++ word f.words[3]
        ++ word f.words[4] ++ word f.words[5] ++ word f.words[6] ++ word f.words[7] ++ word f.status)
    ∧ ∀ p : ProgramFrame, p.bits = sync ++ word p.id ++ word p.complement)

/-- The settle completion (R69) takes a settled track to HALT and nothing else; the burst completion (R88, R162) ends
the burst whose last program frame was begun and takes PROGRAMMING of its slot to VERIFY. The conditions of the
completions are the model's reading (notes/assumptions/4.md, 23.md). -/
def Obligations.SettleAndBurstCompletions : Prop :=
  ∀ (s : State), Running s → RequestsAllowed s →
    (s.track ≠ .settle ∨ s.rail.settleCounter ≠ 0 → exec .settleCompletion s = .next s)
    ∧ (s.track = .settle → s.rail.settleCounter = 0 → exec .settleCompletion s = .next { s with
        track := .halt
        flags := { s.flags with state := true }
        cars := Vector.ofFn fun k : Slot => { s.cars[k] with target := 0, brakeRequest := true, output := 0 } })
    ∧ (s.rail.burst = .active → ∀ n, s.rail.burstRepeat = some n → n ≤ s.rail.programSent →
        exec .burstCompletion s = .next { s with
          rail := { s.rail with burst := .idle, burstSlot := none, burstRepeat := none, programSent := 0, padfeed := none }
          pairing :=
            if s.pairing.state = .programming ∧ s.pairing.slot = s.rail.burstSlot then
              { s.pairing with
                state := .verify, verifyExpiry := some (s.now + BitVec.ofNat 32 s.params.verifyWait) }
            else s.pairing })
    ∧ (s.rail.burst = .idle ∨ (∃ n, s.rail.burstRepeat = some n ∧ s.rail.programSent < n) →
        exec .burstCompletion s = .next s)

/-- RAILFLT (R70): an assertion outside STANDBY enters STANDBY with the rail fault note and FAULT; in STANDBY and at a
deassertion the line's level alone changes. That an assertion in STANDBY changes the level alone, repeated or not, is
the model's reading (notes/assumptions/32.md). -/
def Obligations.RailFaultEntersStandby : Prop :=
  ∀ (s : State),
    exec .railfltDeassertion s = .next { s with railflt := false }
    ∧ (s.held = true ∨ s.track = .standby → exec .railfltAssertion s = .next { s with railflt := true })
    ∧ (s.held = false → s.track ≠ .standby →
        ClaimListsKept s → exec .railfltAssertion s = .next { enteredStandby s with
          railflt := true, railFaultNote := true
          flags := { (enteredStandby s).flags with fault := true } })

/-- The millisecond (R75, R110): track time counts by one, and the LFSR shifts right with the exclusive or of its bits
0, 2, 3 and 5 entering at bit 15; the contest pointer set by mode is slot 1 or (v mod 8) + 1. That one row counts
track time and steps the LFSR is the model's reading (notes/assumptions/3.md). -/
def Obligations.MillisecondAndContestPointer : Prop :=
  ∀ (s : State),
    (Running s → ∃ v : BitVec 16, exec .lfsrStep s = .next { s with now := s.now + 1, lfsr := v }
      ∧ (∀ i, i < 15 → v.getLsbD i = s.lfsr.getLsbD (i + 1))
      ∧ v.getLsbD 15 = (s.lfsr.getLsbD 0 ^^ (s.lfsr.getLsbD 2 ^^ (s.lfsr.getLsbD 3 ^^ s.lfsr.getLsbD 5))))
    ∧ (s.options.pointerMode = .one → slotNumber s.pointerByMode = 1)
    ∧ (s.options.pointerMode = .random → slotNumber s.pointerByMode = s.lfsr.toNat % 8 + 1)

/-! ### Track Node Bus -/

/-- Frames on the bus (R91, R93, R95, R98): a frame that fails the check of size, CRC-8, source, kind or payload is
counted, one for another station ignored; the fields of the others are read as R197 gives; in STANDBY nothing is taken;
an unconfigured or wrong sender is a stray; a HELLO sets kind, time and status, raises NODE as given and ends with
PAD_LOST a pairing whose pad leaves LIVE; a report of an entry UNHEARD or MISMATCH sets its time alone. The silence
timer (R96) takes a LIVE entry to SILENT. That a frame of kind 10h is counted, and that an expiry not reached changes
nothing, are the model's readings (notes/assumptions/4.md, 6.md). That a time exactly 2^31 ms away counts as reached is
the model's choice (notes/assumptions/40.md). -/
def Obligations.NodeFramesAndSilence : Prop :=
  ∀ (s : State), Running s → s.cautionRequests = [] →
    let counted : Outcome State Fault Refusal := .next { s with nodeErrors := min 65535 (s.nodeErrors + 1) }
    let sealed (body : List Byte) : List Byte := body ++ [crc8 body]
    (∀ bytes : List Byte, bytes.length < 4 ∨ 10 < bytes.length → exec (.nodeFrame bytes) s = counted)
    ∧ (∀ body c, c ≠ crc8 body → exec (.nodeFrame (body ++ [c])) s = counted)
    ∧ (∀ (src dst kind : Byte) payload, src.toNat % 16 = 0 ∨ ¬ PayloadFits kind payload →
        exec (.nodeFrame (sealed (src :: dst :: kind :: payload))) s = counted)
    ∧ (∀ (src dst kind : Byte) payload, src.toNat % 16 ≠ 0 → PayloadFits kind payload → dst.toNat % 16 ≠ 0 →
        exec (.nodeFrame (sealed (src :: dst :: kind :: payload))) s = .next s)
    ∧ (∀ (src dst : Byte) (a : Addr), src.toNat % 16 = addrNumber a → dst.toNat % 16 = 0 →
        (∀ b car age : Byte, parseBusFrame (sealed [src, dst, 2, b, car, age]) = .message a
          (.sense (if b.getLsbD 0 then .exit else .entry) (if b.getLsbD 1 then .b else .a) (slotOfByte car) age.toNat))
        ∧ (∀ kind : NodeKind, parseBusFrame (sealed [src, dst, 1, kind.code]) = .message a (.hello kind))
        ∧ (∀ id : Byte, parseBusFrame (sealed [src, dst, 3, 0, id]) = .message a (.pad .empty none)
          ∧ parseBusFrame (sealed [src, dst, 3, 1, id]) = .message a (.pad .one (slotOfByte id))
          ∧ parseBusFrame (sealed [src, dst, 3, 2, id]) = .message a (.pad .many none))
        ∧ (∀ kind : NodeFault, parseBusFrame (sealed [src, dst, 4, kind.code]) = .message a (.fault kind)))
    ∧ (∀ bytes, parseBusFrame bytes = .bad → exec (.nodeFrame bytes) s = counted)
    ∧ (∀ bytes, parseBusFrame bytes = .elsewhere → exec (.nodeFrame bytes) s = .next s)
    ∧ ∀ (a : Addr) (m : NodeMessage) (bytes : List Byte), parseBusFrame bytes = .message a m →
      let n := s.node a
      let run := exec (.nodeFrame bytes) s
      let timed := withNode s a { n with lastHeard := some s.now }
      (s.track = .standby → run = .next s)
      ∧ (s.track ≠ .standby → n.status = .unconfigured ∨ ¬ Takes n.role m →
          run = .next { timed with strayReports := min 65535 (s.strayReports + 1) })
      ∧ (s.track ≠ .standby → n.status ≠ .unconfigured → Takes n.role m → ∀ kind, m = .hello kind →
          let new := helloStatus n.role kind
          let u : State := { withNode s a { n with declared := some kind, lastHeard := some s.now, status := new } with
            flags := { s.flags with
              node := s.flags.node || decide ((new = .mismatch ∧ n.status ≠ .mismatch)
                ∨ (new = .live ∧ (n.status = .silent ∨ n.status = .mismatch))) } }
          run = .next (if n.role = .pad ∧ n.status = .live ∧ new ≠ .live ∧ NeedsPad s.pairing.state then
            pairingEnded u .padLost else u))
      ∧ (s.track ≠ .standby → n.status = .unheard ∨ n.status = .mismatch → Takes n.role m →
          (∀ kind, m ≠ .hello kind) → run = .next timed)
      ∧ (n.status = .live → (∃ t, n.lastHeard = some t ∧ Reached s.now (t + 3000)) →
          let u : State := { withNode s a { n with status := .silent } with flags := { s.flags with node := true } }
          exec (.silenceExpiry a) s
            = .next (if n.role = .pad ∧ NeedsPad s.pairing.state then pairingEnded u .padLost else u))
      ∧ (n.status ≠ .live ∨ (∀ t, n.lastHeard = some t → ¬ Reached s.now (t + 3000)) →
          exec (.silenceExpiry a) s = .next s)

/-- PAD and FAULT reports of a LIVE or SILENT node (R96, R103, R104, R161 to R163), which leave it LIVE: one car on the pad
starts the programming of the slot named or the lowest free one, ends it NO_SLOT where none is free; an emptied pad goes
back to AWAIT_CAR; the right number read is VERIFY passed, any other and MANY a failed attempt; a fault is held, raises
FAULT, closes a section as CLOSE_SECTION NOW does and calls for a caution. The order of the denials and when an
auto-caution request is taken are the model's (notes/assumptions/35.md, 14.md). -/
def Obligations.PadAndFaultReports : Prop :=
  ∀ (s : State) (a : Addr) (bytes : List Byte), Running s → s.cautionRequests = [] → s.track ≠ .standby →
    (s.node a).status = .live ∨ (s.node a).status = .silent →
    let u := reported s a
    let run := exec (.nodeFrame bytes) s
    let Free (k : Slot) : Prop := (s.car k).binding = none ∧ (s.car k).consoleDrive = none
    let programmed (k : Slot) (attempt : Nat) : State := { u with
      pairing := { s.pairing with state := .programming, slot := some k, attempt := attempt, verifyExpiry := none }
      rail := { s.rail with
        burst := .active, burstSlot := some k, burstRepeat := some s.params.programRepeat, programSent := 0
        padfeed := none } }
    let failed : Prop := s.pairing.state = .verify → s.track = .halt → ∀ k, s.pairing.slot = some k →
      run = .next (if s.pairing.attempt < s.params.attempts then programmed k (s.pairing.attempt + 1)
        else pairingEnded u .programFailed)
    let emptied : Pairing := { s.pairing with
      state := .awaitCar, attempt := 0, verifyExpiry := none
      slot := if s.pairing.mode = some .auto then none else s.pairing.slot }
    (∀ id, (s.node a).role = .pad → parseBusFrame bytes = .message a (.pad .one id) →
      (s.pairing.state = .awaitCar → s.track = .halt → ∀ k, s.pairing.mode = some (.slot k) → run = .next (programmed k 1))
      ∧ (s.pairing.state = .awaitCar → s.track = .halt → s.pairing.mode = some .auto → ∀ k, Free k →
          (∀ j, j < k → ¬ Free j) → run = .next (programmed k 1))
      ∧ (s.pairing.state = .awaitCar → s.pairing.mode = some .auto → (∀ j, ¬ Free j) → run = .next { u with
          pairing := Pairing.idle
          result := { slot := s.pairing.slot, hid := s.pairing.candidate, outcome := .noSlot
                      attempts := s.pairing.attempt, ignored := s.pairing.ignored, store := .none }
          flags := { u.flags with pairing := true } })
      ∧ (s.pairing.state = .verify → id ≠ none → id = s.pairing.slot →
          run = .next { u with pairing := { s.pairing with state := .awaitHandset, verifyExpiry := none } })
      ∧ (id = none ∨ id ≠ s.pairing.slot → failed)
      ∧ (s.pairing.state = .idle ∨ s.pairing.state = .programming ∨ s.pairing.state = .awaitHandset
          ∨ s.pairing.state = .confirm → run = .next u))
    ∧ ((s.node a).role = .pad → parseBusFrame bytes = .message a (.pad .many none) →
      failed ∧ (s.pairing.state ≠ .verify → run = .next u))
    ∧ ((s.node a).role = .pad → parseBusFrame bytes = .message a (.pad .empty none) →
      (s.pairing.state = .programming → run = .next { u with pairing := emptied, rail := s.stopBurst.rail })
      ∧ (s.pairing.state = .verify → run = .next { u with pairing := emptied })
      ∧ (s.pairing.state ≠ .programming → s.pairing.state ≠ .verify → run = .next u))
    ∧ (∀ kind, parseBusFrame bytes = .message a (.fault kind) →
      let v : State := { withNode u a { u.node a with fault := some kind } with
        flags := { u.flags with fault := true } }
      ((s.node a).role = .gate ∨ (s.node a).role = .pad → run = .next v)
      ∧ ((s.node a).role = .sect → ClaimListsKept s →
          run = .next (cautionAfter (closedNow v a)
            (lateSources (denialsRecords v a (closingDenials v a)) ++ [.nodeFault]))))

/-! ### Claims, sightings and decisions -/

/-- A lapse (R113, R136): a claim whose lapse time is reached leaves the list and is counted; a PREDICTED one silently,
an ENTERED or GRANTED one with a LAPSE record, a PENDING one with a DENY TOO_LATE record before it and its retry mode
applied; where auto-caution LAPSE is enabled, RUN is then left for CAUTION with every PENDING request denied under DENY
(R72, R151). A time not reached, or no claim, changes nothing. That
a lapse not reached changes nothing, and when an auto-caution request is taken, are the model's readings
(notes/assumptions/4.md, 14.md). That a time exactly 2^31 ms away counts as reached is the model's choice
(notes/assumptions/40.md). -/
def Obligations.ClaimLapseRemovesTheClaim : Prop :=
  ∀ (s : State) (a : Addr) (place : Nat), Running s → s.cautionRequests = [] → ClaimListsKept s →
    (∀ sec, s.sectionAt a = some sec →
      (∀ c, sec.claims[place]? = some c → ∀ t, c.lapse = some t → ¬ Reached s.now t) →
      exec (.claimLapse a place) s = .next s)
    ∧ (s.sectionAt a = none → exec (.claimLapse a place) s = .next s)
    ∧ ∀ sec c t, s.sectionAt a = some sec → sec.claims[place]? = some c → c.lapse = some t → Reached s.now t →
      let run := exec (.claimLapse a place) s
      let gone (u : State) : State := { u with
        sections := u.sections.set a (some (afterRemoval
          { sec with lapseCount := min 65535 (sec.lapseCount + 1) } (sec.claims.eraseIdx place))) }
      (c.state = .predicted → run = .next (gone s))
      ∧ (c.state = .entered ∨ c.state = .granted →
          run = .next (cautionAfter (recorded (gone s) (plainRecord s a c.car .lapse)) [.lapse]))
      ∧ (c.state = .pending → ∀ k, c.car = .slot k →
          run = .next (cautionAfter (recorded (gone (retried (recorded s (denyRecord s a k .tooLate none)) k))
            (plainRecord s a (.slot k) .lapse)) [.lapse]))

/-- A decision (R115, R144, R147 to R149, R153) at a decide time reached: no reached PENDING claim, no change; a closed
or BLIND section and a claim in conflict that is not PENDING deny the request; an empty conflict set, or a contest of
the request alone, grants it with the THROW of R139 to R141 and without moving the pointer, or denies it BUS_BUSY at a
full transmit queue; a contest of more grants the first contestant from the pointer, moves the pointer past it, and
denies the others CONTEST_LOST in the order of the search. A denial leaves the claim of R145 and its late conflicts,
which may call for a caution. That an expiry not reached changes nothing, and when the caution is taken, are the
model's readings (notes/assumptions/4.md, 14.md). That a time exactly 2^31 ms away counts as reached is the model's
choice (notes/assumptions/40.md). -/
def Obligations.DecisionsAtTheDecideTime : Prop :=
  ∀ (s : State) (a : Addr) (k : Slot), Running s → s.cautionRequests = [] →
    s.track = .run ∨ (s.track = .caution ∧ s.options.cautionLanes = .allow) → ClaimListsKept s →
    let run := exec (.decideTimeExpiry a k) s
    ((∀ sec, s.sectionAt a = some sec → ∀ c ∈ sec.claims, c.car = .slot k → c.state = .pending →
        ∀ t, c.decideTime = some t → ¬ Reached s.now t) → run = .next s)
    ∧ ∀ sec c t, s.sectionAt a = some sec → c ∈ sec.claims → c.car = .slot k → c.state = .pending →
      c.decideTime = some t → Reached s.now t →
      let denied (r : DenyReason) (other : Option CarRef) : Prop :=
        run = .next (cautionAfter (denials s a [⟨k, r, other⟩]) (lateSources (denialsRecords s a [⟨k, r, other⟩])))
      let rivals (r : Claim) : List Claim :=
        sec.claims.filter fun d => decide (d.car ≠ r.car) && conflicts sec.map.guard r d
      let waiting (l : List Claim) : Bool := l.all fun d => decide (d.state = .pending)
      let contestants : List Slot := ([0, 1, 2, 3, 4, 5, 6, 7].map fun i => sec.pointer + i).filter fun j =>
        decide (j = k) || (rivals c).any fun d => decide (d.car = .slot j) && waiting (rivals d)
      (sec.admin ≠ .opened → denied .closed none)
      ∧ (sec.admin = .opened → Blinded s sec → denied .blind none)
      ∧ (sec.admin = .opened → ¬ Blinded s sec → ∀ d, (rivals c).find? (fun x => x.state ≠ .pending) = some d →
          denied .conflict (some d.car))
      ∧ (sec.admin = .opened → ¬ Blinded s sec → rivals c = [] ∨ (waiting (rivals c) = true ∧ contestants = [k]) →
          (s.throws.length < 4 → run = .next (granted s a sec k c)) ∧ (4 ≤ s.throws.length → denied .busBusy none))
      ∧ (sec.admin = .opened → ¬ Blinded s sec → waiting (rivals c) = true → rivals c ≠ [] →
          ∀ w j losers cw, contestants = w :: j :: losers → cw ∈ sec.claims → cw.car = .slot w →
          let sec' : Section := { sec with pointer := w + 1 }
          let moved : State := { s with sections := s.sections.set a (some sec') }
          let lost : List Denial := (j :: losers).map fun i => ⟨i, .contestLost, some (.slot w)⟩
          (s.throws.length < 4 →
            let g := granted moved a sec' w cw
            run = .next (cautionAfter (denials g a lost) (lateSources (denialsRecords g a lost))))
          ∧ (4 ≤ s.throws.length →
            let g := denials moved a [⟨w, .busBusy, none⟩]
            run = .next (cautionAfter (denials g a lost)
              (lateSources (denialsRecords moved a [⟨w, .busBusy, none⟩] ++ denialsRecords g a lost)))))

/-- Sightings (R96, R102, R112, R114, R119 to R122, R125, R153) of a LIVE or SILENT node outside STANDBY: a stale one
or a repeat changes the node's entry alone; the entry of a car not armed closes its claims elsewhere, records its
position and enters its claim, or overflows a full list, with the late conflicts of the claim stored; an UNREAD car's
entry adds an ANON claim, its exit removes the first on its lane, and a gate changes nothing more. Where claims of
equal times stand and when an auto-caution request is taken are the model's (notes/assumptions/14.md, 15.md). That of
two times exactly 2^31 ms apart neither is earlier is the model's choice (notes/assumptions/40.md). -/
def Obligations.SightingsMoveClaimsAndPositions : Prop :=
  ∀ (s : State) (a : Addr) (bytes : List Byte) (sensor : Sensor) (lane : Lane) (age : Nat) (car : Option Slot),
    Running s → s.cautionRequests = [] → s.track ≠ .standby → ClaimListsKept s →
    (s.node a).status = .live ∨ (s.node a).status = .silent → (s.node a).role = .sect ∨ (s.node a).role = .gate →
    parseBusFrame bytes = .message a (.sense sensor lane car age) →
    let u := reported s a
    let sense := s.now - BitVec.ofNat 32 age
    let run := exec (.nodeFrame bytes) s
    let repeats (p : Position) (t : TrackTime) : Prop := p.lastNode = some a ∧ p.lastSensor = some sensor
      ∧ p.lastLane = some lane ∧ (sense - t).toInt < 1000
    let tested (t : State) (sec : Section) (c : Claim) (sources : List CautionSource) : State :=
      cautionAfter (recordedAll t (lateRecords t a sec c)) (sources ++ lateSources (lateRecords t a sec c))
    (∀ k t, car = some k → (s.position k).lastSeen = some t → 0 < (t - sense).toInt ∨ repeats (s.position k) t →
      run = .next u)
    ∧ (∀ k, car = some k → sensor = .entry → (s.node a).role = .sect →
        (∀ t, (s.position k).lastSeen = some t → ¬ 0 < (t - sense).toInt ∧ ¬ repeats (s.position k) t) →
        ∀ sec, s.sectionAt a = some sec →
        let v := enteredSection (sighted u a sensor lane sense k) a sec k lane sense
        (v.car k).armed = false →
        (∀ sec' c, v.sectionAt a = some sec' → c ∈ sec'.claims → c.car = .slot k →
          run = .next (tested v sec' c (enteringSources sec k)))
        ∧ ((∀ sec', v.sectionAt a = some sec' → ∀ c ∈ sec'.claims, c.car ≠ .slot k) → run = .next v))
    ∧ (∀ sec, car = none → (s.node a).role = .sect → sensor = .entry → s.sectionAt a = some sec →
        let c := anonEntered sec.map lane sense
        (sec.claims.length < 6 → run = .next (tested
          { u with sections := s.sections.set a (some { sec with claims := placed c sec.claims }) } sec c []))
        ∧ (6 ≤ sec.claims.length → run = .next { u with sections := s.sections.set a (some { sec with
            overflow := true, lastOverflow := some s.now, overflowCount := min 65535 (sec.overflowCount + 1) }) }))
    ∧ (car = none → (s.node a).role = .gate → run = .next u)
    ∧ (∀ sec, car = none → (s.node a).role = .sect → sensor = .exit → s.sectionAt a = some sec →
        let here (c : Claim) : Prop := c.car = .anon ∧ c.kind = if lane = .a then .straightA else .straightB
        ((∀ c ∈ sec.claims, ¬ here c) → run = .next u)
        ∧ (∀ l c r, sec.claims = l ++ c :: r → (∀ d ∈ l, ¬ here d) → here c →
            run = .next { u with sections := s.sections.set a (some (afterRemoval sec (l ++ r))) }))

/-- A sighting of a car slot that is neither stale nor a repeat (R119 to R124): at a gate and at an exit its claims
elsewhere, and at the exit its claim there, end with their records, and every section linked to the node for the lane
looks ahead; at an entry an armed car asks to cross (R142, R143, R145, R153): refused at once with STATE, CLOSED,
BLIND, TOO_SLOW or TOO_LATE, PENDING until its decide time, or decided in this step where that is reached; BLIND at a
full list. When the sighting's steps write their records, and when an auto-caution request is taken, is as the model
orders them (notes/assumptions/14.md, 15.md, 31.md). That of two times exactly 2^31 ms apart neither is earlier, so
that the one counts as reached at the other, is the model's choice (notes/assumptions/40.md). -/
def Obligations.RequestsExitsAndLookahead : Prop :=
  ∀ (s : State) (a : Addr) (bytes : List Byte) (sensor : Sensor) (lane : Lane) (age : Nat) (k : Slot),
    Running s → s.cautionRequests = [] → s.track ≠ .standby → ClaimListsKept s → RegistryKept s →
    (s.node a).status = .live ∨ (s.node a).status = .silent → (s.node a).role = .sect ∨ (s.node a).role = .gate →
    parseBusFrame bytes = .message a (.sense sensor lane (some k) age) →
    let sense := s.now - BitVec.ofNat 32 age
    let p := s.position k
    (∀ t, p.lastSeen = some t → ¬ 0 < (t - sense).toInt
      ∧ ¬ (p.lastNode = some a ∧ p.lastSensor = some sensor ∧ p.lastLane = some lane ∧ (sense - t).toInt < 1000)) →
    let run := exec (.nodeFrame bytes) s
    let moved := sighted (reported s a) a sensor lane sense k
    ((s.node a).role = .gate ∨ sensor = .exit → run = .next
      (cautionAfter (lookedAhead moved a lane sense k) (lateSources (lookaheadRecords moved a lane sense k))))
    ∧ (∀ sec, (s.node a).role = .sect → sensor = .entry → s.sectionAt a = some sec →
      let v := enteredSection moved a sec k lane sense
      (v.car k).armed = true →
      ((∀ sec', v.sectionAt a = some sec' → ∀ c ∈ sec'.claims, c.car ≠ .slot k) →
        run = .next (retried (recorded v (denyRecord v a k .blind none)) k))
      ∧ ∀ sec' c, v.sectionAt a = some sec' → c ∈ sec'.claims → c.car = .slot k →
        let x := windowOf (v.car k) (v.car k).output sense sec'.map.approach sec'.map.crossing
        let due := c.enter - BitVec.ofNat 32 sec'.map.lead
        let request : Claim := { c with
          kind := if lane = .a then .crossAB else .crossBA, state := .pending, clear := x.2, decideTime := some due
          lapse := lapseOf sec'.map x.2 }
        let asked : State := { v with sections := v.sections.set a (some { sec' with
          claims := sec'.claims.map fun d => if d.car = .slot k then request else d }) }
        let allowed := s.track = .run ∨ (s.track = .caution ∧ s.options.cautionLanes = .allow)
        let sources := enteringSources sec k
        let refused (reason : DenyReason) : Prop := run = .next (cautionAfter (denials v a [⟨k, reason, none⟩])
          (sources ++ lateSources (denialsRecords v a [⟨k, reason, none⟩])))
        (¬ allowed → refused .state)
        ∧ (allowed → sec'.admin ≠ .opened → refused .closed)
        ∧ (allowed → sec'.admin = .opened → Blinded v sec' → refused .blind)
        ∧ (allowed → sec'.admin = .opened → ¬ Blinded v sec' → x.2 = .unbounded → refused .tooSlow)
        ∧ (allowed → sec'.admin = .opened → ¬ Blinded v sec' → x.2 ≠ .unbounded → Reached s.now c.enter →
            refused .tooLate)
        ∧ (allowed → sec'.admin = .opened → ¬ Blinded v sec' → x.2 ≠ .unbounded → ¬ Reached s.now c.enter →
            (¬ Reached s.now due → run = .next (cautionAfter asked sources))
            ∧ (Reached s.now due → run = exec (.decideTimeExpiry a k) { asked with cautionRequests := sources })))

/-- The completion of the store write in flight (R170, R176): the record and the bad flag, the slot's store status, a
PENDING result of the slot, FAULT at a failure, and the next dirty slot's write begun; none in flight, no change. The
form of a failed record, and that a completion with no write in flight changes nothing, are the model's
(notes/assumptions/4.md, 8.md). -/
def Obligations.StoreWriteCompletionSetsStatus : Prop :=
  ∀ (s : State) (ok : Bool), Running s →
    (s.store.inFlight = none → exec (.storeWriteCompletion ok) s = .next s)
    ∧ ∀ w, s.store.inFlight = some w →
      let again := s.store.dirty[w.slot]
      ∃ t, exec (.storeWriteCompletion ok) s = .next t
        ∧ t.car w.slot = { s.car w.slot with
            storeStatus := if ok then (if again then .pending else .saved) else .unsaved }
        ∧ (∀ j, j ≠ w.slot → t.car j = s.car j)
        ∧ t.store.records = s.store.records.set w.slot (if ok then bindingRecord w.slot w.hid else .damaged)
        ∧ t.store.bad = s.store.bad.set w.slot (!ok) ∧ t.store.load = s.store.load
        ∧ t.flags = { s.flags with fault := s.flags.fault || !ok }
        ∧ (s.result.slot = some w.slot → s.result.store = .pending → t.result = { s.result with
            store := if ok then (if again then .pending else .saved) else .unsaved })
        ∧ (s.result.slot ≠ some w.slot ∨ s.result.store ≠ .pending → t.result = s.result)
        ∧ ((∀ j : Slot, s.store.dirty[j] = false) → t.store.inFlight = none ∧ t.store.dirty = s.store.dirty)
        ∧ (∀ j, LowestDirty s.store.dirty j →
            t.store.inFlight = some { slot := j, hid := (s.car j).binding }
              ∧ t.store.dirty = s.store.dirty.set j false)
        ∧ t = { s with cars := t.cars, store := t.store, flags := t.flags, result := t.result }

/-! ### Arithmetic -/

/-- The normalised throttle (R44) and the curve level (R45), with the worked figures of R44 and R47. -/
def Obligations.ThrottleAndCurveArithmetic : Prop :=
  (∀ lo hi raw, lo < hi → hi ≤ 255 →
    (raw ≤ lo → normalise lo hi raw = 0) ∧ (hi ≤ raw → normalise lo hi raw = 255)
    ∧ (lo < raw → raw < hi → normalise lo hi raw = (raw - lo) * 255 / (hi - lo) ∧ normalise lo hi raw ≤ 254))
  ∧ normalise 8 247 149 = 150 ∧ normalise 8 247 148 = 149
  ∧ (∀ (curve : Curve) (t : Nat) (h : t ≤ 255),
      let p := curve.get ⟨t / 32, by omega⟩
      let q := curve.get ⟨t / 32 + 1, by omega⟩
      (curveLevel curve t : Int) = (p : Int) + Int.tdiv (((q : Int) - (p : Int)) * ((t % 32 : Nat) : Int)) 32
      ∧ min p q ≤ curveLevel curve t ∧ curveLevel curve t ≤ max p q ∧ (t % 32 = 0 → curveLevel curve t = p))
  ∧ curveLevel defaultRaceCurve 255 = 254

/-- A recomputation (R43, R46, R48 to R53): target and brake request by the first row that holds, and the limit cut of
the output level; no other field of the record changes. -/
def Obligations.RecomputationFollowsTheRows : Prop :=
  ∀ (t : TrackState) (r : Car),
    let r' := Car.recompute t r
    let level := min (curveLevel (if t = .caution then r.cautionCurve else r.raceCurve)
      (normalise r.calLo r.calHi r.inputs.thr)) r.speedLimit
    (Stopped t → r'.target = 0 ∧ r'.brakeRequest = true)
    ∧ (¬ Stopped t → ∀ n, r.consoleDrive = some n → r'.target = min n r.speedLimit ∧ r'.brakeRequest = false)
    ∧ (¬ Stopped t → r.consoleDrive = none → r.link = .none ∨ r.link = .silent ∨ r.link = .lost →
        r'.target = 0 ∧ r'.brakeRequest = true)
    ∧ (¬ Stopped t → r.consoleDrive = none → r.link = .live ∨ r.link = .fade → r.inputs.brake = true →
        r'.target = 0 ∧ r'.brakeRequest = true)
    ∧ (¬ Stopped t → r.consoleDrive = none → r.link = .live → r.inputs.brake = false →
        r'.target = level ∧ r'.brakeRequest = false)
    ∧ (¬ Stopped t → r.consoleDrive = none → r.link = .fade → r.inputs.brake = false →
        r'.target = min level r.fadeCap ∧ r'.brakeRequest = false)
    ∧ r'.output = (if r.link = .fade ∧ r.consoleDrive = none then min (min r.output r.speedLimit) r.fadeCap
        else min r.output r.speedLimit)
    ∧ r' = { r with target := r'.target, brakeRequest := r'.brakeRequest, output := r'.output }

/-- The windows of claims (R128 to R133): of a car slot from its record and level, over the approach or a lookahead
distance, and of an ANON claim with its fixed values; the clear time of a request over the crossing path. -/
def Obligations.WindowsOfClaims : Prop :=
  ∀ (s : State) (sec : Section) (k : Slot) (level distance : Nat) (lane : Lane) (sense : TrackTime)
    (origin : ClaimOrigin) (state : ClaimState), (s.position k).level = some level →
    let m := s.motion sec (.slot k)
    let w := windowOf (s.car k) level sense distance sec.map.straight
    let x := windowOf (s.car k) level sense distance sec.map.crossing
    straightClaim sec.map m (.slot k) lane origin state sense distance =
      { car := .slot k, kind := if lane = .a then .straightA else .straightB, origin := origin, state := state
        sense := sense, enter := w.1, clear := w.2, decideTime := none, exitLane := lane, lapse := lapseOf sec.map w.2 }
    ∧ m.clearTime sec.map sense distance .crossAB = x.2 ∧ m.clearTime sec.map sense distance .crossBA = x.2
    ∧ (let c := s.anonClaim sec
        { node := 0, role := .sect, sensor := .entry, lane := lane, car := none, sense := sense }
      let late := ((sec.map.approach + sec.map.straight + 140) * 255000 + (3000 * sec.map.anonClear - 1))
        / (3000 * sec.map.anonClear)
      c.car = .anon ∧ c.state = .entered ∧ c.origin = .sensed ∧ c.exitLane = lane ∧ c.sense = sense
        ∧ c.enter = sense + BitVec.ofNat 32 (min 65535 (sec.map.approach * 255000 / (3000 * 255)))
        ∧ c.clear = (if sec.map.anonClear = 0 ∨ 65535 ≤ late then .unbounded
            else .bounded (sense + BitVec.ofNat 32 late))
        ∧ c.lapse = lapseOf sec.map c.clear)

/-- Overlap (R137), conflict (R138) and the flipper hold (R140). That of two times exactly 2^31 ms apart neither is
earlier is the model's choice (notes/assumptions/40.md). -/
def Obligations.OverlapConflictAndHold : Prop :=
  (∀ (g : Nat) (a b : Claim),
    let before (t : TrackTime) (c : ClearTime) : Prop := ∀ u, c = .bounded u → 0 < (u + BitVec.ofNat 32 g - t).toInt
    overlaps g a b = true ↔ before a.enter b.clear ∧ before b.enter a.clear)
  ∧ (∀ (g : Nat) (a b : Claim), conflicts g a b = true ↔ overlaps g a b = true ∧
      ((a.kind = .crossAB ∧ (b.kind = .straightB ∨ b.kind = .crossBA))
        ∨ (a.kind = .crossBA ∧ (b.kind = .straightA ∨ b.kind = .crossAB))
        ∨ (a.kind = .straightA ∧ b.kind = .crossBA) ∨ (a.kind = .straightB ∧ b.kind = .crossAB)))
  ∧ (∀ (g : Nat) (a b : Claim), overlaps g a b = overlaps g b a ∧ conflicts g a b = conflicts g b a)
  ∧ ∀ (m : SectionMap) (now : TrackTime), m.pullIn ≤ m.coilLimit →
      flipperHold m .unbounded now = (m.coilLimit - m.pullIn, true)
      ∧ ∀ t, let h : Int := (t - now).toInt - m.pullIn
        (h < 0 → flipperHold m (.bounded t) now = (0, false))
        ∧ (0 ≤ h → h ≤ (m.coilLimit : Int) - m.pullIn → flipperHold m (.bounded t) now = (h.toNat, false))
        ∧ ((m.coilLimit : Int) - m.pullIn < h →
            flipperHold m (.bounded t) now = (m.coilLimit - m.pullIn, true))

/-! ### Frames and records agree with their readings -/

/-- Every handset frame, node message and binding record stands in the layout of Tables 12-1, 12-3 and 12-7 and is read
back as it was (R194 to R197, R200). The CRC-8 starts at FFh and takes each byte most significant bit first by the
generator 07h, without a final inversion. A binding record is good exactly where its check byte is the CRC-8 of the five
bytes before it, its slot byte that of its place and its identity not 0 (R172, R200). The order of the bytes of a stored
identity, and the form of a cut or failed record, are the model's (notes/assumptions/44.md, 8.md). -/
def Obligations.FramesAndRecordsReadBack : Prop :=
  (crc8 [] = 0xFF ∧ ∀ (l : List Byte) (b : Byte),
    let shift (r : Byte) : Byte := if r.getLsbD 7 then (r <<< 1) ^^^ 0x07 else r <<< 1
    crc8 (l ++ [b]) = (shift ∘ shift ∘ shift ∘ shift ∘ shift ∘ shift ∘ shift ∘ shift) (crc8 l ^^^ b))
  ∧ (∀ f : HandsetFrame, f.seq < 16 → f.thr < 256 → f.batt < 8 →
    let buttons := f.seq + 16 * f.lane.toNat + 32 * f.brake.toNat + 64 * f.bind.toNat + 128 * f.wake.toNat
    let body : List Byte := 0x07 :: Layout.four f.hid ++ [BitVec.ofNat 8 buttons, BitVec.ofNat 8 f.thr, BitVec.ofNat 8 f.batt]
    handsetBytes f = 0xA5 :: body ++ [crc8 body] ∧ parseHandset ((handsetBytes f).drop 1) = some f)
  ∧ (∀ (a : Addr) (m : NodeMessage), (∀ x l c age, m = .sense x l c age → age < 256) →
      (∀ o id, m = .pad o id → o ≠ .one → id = none) →
      let unread (c : Option Slot) : Byte := match c with
        | some k => Layout.slot k
        | none => 0
      let body : List Byte := [Layout.addr a, 0] ++ match m with
        | .hello kind => [1, kind.code]
        | .sense sensor lane car age =>
          [2, (if sensor = .entry then 0 else 1) + (if lane = .a then 0 else 2), unread car, BitVec.ofNat 8 age]
        | .pad occupancy id =>
          [3, match occupancy with
            | .empty => 0
            | .one => 1
            | .many => 2, unread id]
        | .fault kind => [4, kind.code]
      nodeFrameBytes a m = body ++ [crc8 body] ∧ parseBusFrame (nodeFrameBytes a m) = .message a m)
  ∧ ∀ (k : Slot) (h : Option Hid), (∀ x, h = some x → x ≠ 0 ∧ x ≠ 0xFFFFFFFF#32) →
      let v : Hid := match h with
        | some x => x
        | none => 0xFFFFFFFF
      let b3 : Byte := v.extractLsb' 24 8
      let b2 : Byte := v.extractLsb' 16 8
      let b1 : Byte := v.extractLsb' 8 8
      let b0 : Byte := v.extractLsb' 0 8
      bindingRecord k h = .bytes (Layout.slot k) b3 b2 b1 b0 (crc8 [Layout.slot k, b3, b2, b1, b0])
        ∧ readRecord k (bindingRecord k h) = some h
        ∧ readRecord k .damaged = none
        ∧ ∀ slot h3 h2 h1 h0 check : Byte,
          let id : Hid := h3 ++ h2 ++ h1 ++ h0
          let read := readRecord k (.bytes slot h3 h2 h1 h0 check)
          (check ≠ crc8 [slot, h3, h2, h1, h0] → read = none)
          ∧ (slot ≠ Layout.slot k → read = none)
          ∧ (id = 0 → read = none)
          ∧ (check = crc8 [slot, h3, h2, h1, h0] → slot = Layout.slot k → id ≠ 0 →
            read = some (if id = 0xFFFFFFFF#32 then none else some id))

/-! ### Invariants of every step -/

/-- Rail power, frame starts, settle counter, burst and pairing agree with the track state after every step. -/
def Obligations.StepKeepsTrackFollowers : Prop :=
  ∀ s t : State, TrackFollowers s → step s = .next t → TrackFollowers t

/-- The queues keep their capacities after every step, no auto-caution request is left waiting, and no slot waits to be
written where no write is in flight (R175). That requests are
taken at the end of their event is the model's reading (notes/assumptions/14.md). -/
def Obligations.StepKeepsQueuesBounded : Prop :=
  ∀ s t : State, QueuesBounded s → step s = .next t → QueuesBounded t

/-- The registry and the section records agree after every step. -/
def Obligations.StepKeepsRegistry : Prop :=
  ∀ s t : State, RegistryKept s → step s = .next t → RegistryKept t

/-- After every step STANDBY still holds no claim, no decision record and no car position. -/
def Obligations.StepKeepsStandbyQuiet : Prop :=
  ∀ s t : State, StandbyQuiet s → step s = .next t → StandbyQuiet t

/-- The claim lists keep their capacity, one claim per car slot and claims that fit their states after every step, and
no request is PENDING where no crossing may be granted. -/
def Obligations.StepKeepsClaimLists : Prop :=
  ∀ s t : State, ClaimListsKept s ∧ RequestsAllowed s → step s = .next t → ClaimListsKept t ∧ RequestsAllowed t

/-- Every car record keeps its ranges, its levels their bounds, its watch timer its link state after every step. -/
def Obligations.StepKeepsCars : Prop :=
  ∀ s t : State, CarsKept s → step s = .next t → CarsKept t

/-- No identity is bound twice, listed twice, or both bound and listed after any step. -/
def Obligations.StepKeepsIdentities : Prop :=
  ∀ s t : State, IdentitiesDistinct s → step s = .next t → IdentitiesDistinct t

/-- The state right after reset meets every invariant. The moment State.reset stands for, and the store's contents in it,
are the model's (notes/assumptions/7.md, 10.md). -/
def Obligations.ResetMeetsTheInvariants : Prop :=
  TrackFollowers State.reset ∧ QueuesBounded State.reset ∧ RegistryKept State.reset ∧ StandbyQuiet State.reset
    ∧ ClaimListsKept State.reset ∧ RequestsAllowed State.reset ∧ CarsKept State.reset
    ∧ IdentitiesDistinct State.reset

end
end

