-- ==== Sys2Proof/Laws/State.lean ====
section
/-! SUPPORT. What each update of State makes of each field: one lemma per field and update, all by rfl. A proof
about an operation built on these updates reads fields through them and unfolds no record update. -/

namespace Sys2Proof.Machine

variable (s : State)

/-! ### raise -/

@[simp] theorem raise_pending (e : Event) : (s.raise e).pending = s.pending := rfl
@[simp] theorem raise_held (e : Event) : (s.raise e).held = s.held := rfl
@[simp] theorem raise_now (e : Event) : (s.raise e).now = s.now := rfl
@[simp] theorem raise_served (e : Event) : (s.raise e).served = s.served := rfl
@[simp] theorem raise_flags (e : Event) : (s.raise e).flags = s.flags.raise e := rfl
@[simp] theorem raise_enables (e : Event) : (s.raise e).enables = s.enables := rfl
@[simp] theorem raise_response (e : Event) : (s.raise e).response = s.response := rfl
@[simp] theorem raise_softResetDue (e : Event) : (s.raise e).softResetDue = s.softResetDue := rfl
@[simp] theorem raise_receiver (e : Event) : (s.raise e).receiver = s.receiver := rfl
@[simp] theorem raise_unbound (e : Event) : (s.raise e).unbound = s.unbound := rfl
@[simp] theorem raise_watch (e : Event) : (s.raise e).watch = s.watch := rfl
@[simp] theorem raise_notices (e : Event) : (s.raise e).notices = s.notices := rfl
@[simp] theorem raise_handsetErrors (e : Event) : (s.raise e).handsetErrors = s.handsetErrors := rfl
@[simp] theorem raise_handsetDuplicates (e : Event) : (s.raise e).handsetDuplicates = s.handsetDuplicates := rfl
@[simp] theorem raise_cars (e : Event) : (s.raise e).cars = s.cars := rfl
@[simp] theorem raise_rail (e : Event) : (s.raise e).rail = s.rail := rfl
@[simp] theorem raise_track (e : Event) : (s.raise e).track = s.track := rfl
@[simp] theorem raise_cautionCause (e : Event) : (s.raise e).cautionCause = s.cautionCause := rfl
@[simp] theorem raise_lastWake (e : Event) : (s.raise e).lastWake = s.lastWake := rfl
@[simp] theorem raise_railFaultNote (e : Event) : (s.raise e).railFaultNote = s.railFaultNote := rfl
@[simp] theorem raise_railflt (e : Event) : (s.raise e).railflt = s.railflt := rfl
@[simp] theorem raise_options (e : Event) : (s.raise e).options = s.options := rfl
@[simp] theorem raise_cautionRequests (e : Event) : (s.raise e).cautionRequests = s.cautionRequests := rfl
@[simp] theorem raise_nodes (e : Event) : (s.raise e).nodes = s.nodes := rfl
@[simp] theorem raise_throws (e : Event) : (s.raise e).throws = s.throws := rfl
@[simp] theorem raise_throwSending (e : Event) : (s.raise e).throwSending = s.throwSending := rfl
@[simp] theorem raise_nodeErrors (e : Event) : (s.raise e).nodeErrors = s.nodeErrors := rfl
@[simp] theorem raise_strayReports (e : Event) : (s.raise e).strayReports = s.strayReports := rfl
@[simp] theorem raise_positions (e : Event) : (s.raise e).positions = s.positions := rfl
@[simp] theorem raise_sections (e : Event) : (s.raise e).sections = s.sections := rfl
@[simp] theorem raise_lfsr (e : Event) : (s.raise e).lfsr = s.lfsr := rfl
@[simp] theorem raise_decisions (e : Event) : (s.raise e).decisions = s.decisions := rfl
@[simp] theorem raise_decisionOverflows (e : Event) : (s.raise e).decisionOverflows = s.decisionOverflows := rfl
@[simp] theorem raise_pairing (e : Event) : (s.raise e).pairing = s.pairing := rfl
@[simp] theorem raise_result (e : Event) : (s.raise e).result = s.result := rfl
@[simp] theorem raise_params (e : Event) : (s.raise e).params = s.params := rfl
@[simp] theorem raise_store (e : Event) : (s.raise e).store = s.store := rfl

/-! ### respond -/

@[simp] theorem respond_pending (x : Status) (d : List Byte) : (s.respond x d).pending = s.pending := rfl
@[simp] theorem respond_held (x : Status) (d : List Byte) : (s.respond x d).held = s.held := rfl
@[simp] theorem respond_now (x : Status) (d : List Byte) : (s.respond x d).now = s.now := rfl
@[simp] theorem respond_served (x : Status) (d : List Byte) : (s.respond x d).served = s.served := rfl
@[simp] theorem respond_flags (x : Status) (d : List Byte) : (s.respond x d).flags = s.flags := rfl
@[simp] theorem respond_enables (x : Status) (d : List Byte) : (s.respond x d).enables = s.enables := rfl
@[simp] theorem respond_response (x : Status) (d : List Byte) : (s.respond x d).response = some { status := x, data := d } := rfl
@[simp] theorem respond_softResetDue (x : Status) (d : List Byte) : (s.respond x d).softResetDue = s.softResetDue := rfl
@[simp] theorem respond_receiver (x : Status) (d : List Byte) : (s.respond x d).receiver = s.receiver := rfl
@[simp] theorem respond_unbound (x : Status) (d : List Byte) : (s.respond x d).unbound = s.unbound := rfl
@[simp] theorem respond_watch (x : Status) (d : List Byte) : (s.respond x d).watch = s.watch := rfl
@[simp] theorem respond_notices (x : Status) (d : List Byte) : (s.respond x d).notices = s.notices := rfl
@[simp] theorem respond_handsetErrors (x : Status) (d : List Byte) : (s.respond x d).handsetErrors = s.handsetErrors := rfl
@[simp] theorem respond_handsetDuplicates (x : Status) (d : List Byte) : (s.respond x d).handsetDuplicates = s.handsetDuplicates := rfl
@[simp] theorem respond_cars (x : Status) (d : List Byte) : (s.respond x d).cars = s.cars := rfl
@[simp] theorem respond_rail (x : Status) (d : List Byte) : (s.respond x d).rail = s.rail := rfl
@[simp] theorem respond_track (x : Status) (d : List Byte) : (s.respond x d).track = s.track := rfl
@[simp] theorem respond_cautionCause (x : Status) (d : List Byte) : (s.respond x d).cautionCause = s.cautionCause := rfl
@[simp] theorem respond_lastWake (x : Status) (d : List Byte) : (s.respond x d).lastWake = s.lastWake := rfl
@[simp] theorem respond_railFaultNote (x : Status) (d : List Byte) : (s.respond x d).railFaultNote = s.railFaultNote := rfl
@[simp] theorem respond_railflt (x : Status) (d : List Byte) : (s.respond x d).railflt = s.railflt := rfl
@[simp] theorem respond_options (x : Status) (d : List Byte) : (s.respond x d).options = s.options := rfl
@[simp] theorem respond_cautionRequests (x : Status) (d : List Byte) : (s.respond x d).cautionRequests = s.cautionRequests := rfl
@[simp] theorem respond_nodes (x : Status) (d : List Byte) : (s.respond x d).nodes = s.nodes := rfl
@[simp] theorem respond_throws (x : Status) (d : List Byte) : (s.respond x d).throws = s.throws := rfl
@[simp] theorem respond_throwSending (x : Status) (d : List Byte) : (s.respond x d).throwSending = s.throwSending := rfl
@[simp] theorem respond_nodeErrors (x : Status) (d : List Byte) : (s.respond x d).nodeErrors = s.nodeErrors := rfl
@[simp] theorem respond_strayReports (x : Status) (d : List Byte) : (s.respond x d).strayReports = s.strayReports := rfl
@[simp] theorem respond_positions (x : Status) (d : List Byte) : (s.respond x d).positions = s.positions := rfl
@[simp] theorem respond_sections (x : Status) (d : List Byte) : (s.respond x d).sections = s.sections := rfl
@[simp] theorem respond_lfsr (x : Status) (d : List Byte) : (s.respond x d).lfsr = s.lfsr := rfl
@[simp] theorem respond_decisions (x : Status) (d : List Byte) : (s.respond x d).decisions = s.decisions := rfl
@[simp] theorem respond_decisionOverflows (x : Status) (d : List Byte) : (s.respond x d).decisionOverflows = s.decisionOverflows := rfl
@[simp] theorem respond_pairing (x : Status) (d : List Byte) : (s.respond x d).pairing = s.pairing := rfl
@[simp] theorem respond_result (x : Status) (d : List Byte) : (s.respond x d).result = s.result := rfl
@[simp] theorem respond_params (x : Status) (d : List Byte) : (s.respond x d).params = s.params := rfl
@[simp] theorem respond_store (x : Status) (d : List Byte) : (s.respond x d).store = s.store := rfl

/-! ### setCar -/

@[simp] theorem setCar_pending (k : Slot) (r : Car) : (s.setCar k r).pending = s.pending := rfl
@[simp] theorem setCar_held (k : Slot) (r : Car) : (s.setCar k r).held = s.held := rfl
@[simp] theorem setCar_now (k : Slot) (r : Car) : (s.setCar k r).now = s.now := rfl
@[simp] theorem setCar_served (k : Slot) (r : Car) : (s.setCar k r).served = s.served := rfl
@[simp] theorem setCar_flags (k : Slot) (r : Car) : (s.setCar k r).flags = s.flags := rfl
@[simp] theorem setCar_enables (k : Slot) (r : Car) : (s.setCar k r).enables = s.enables := rfl
@[simp] theorem setCar_response (k : Slot) (r : Car) : (s.setCar k r).response = s.response := rfl
@[simp] theorem setCar_softResetDue (k : Slot) (r : Car) : (s.setCar k r).softResetDue = s.softResetDue := rfl
@[simp] theorem setCar_receiver (k : Slot) (r : Car) : (s.setCar k r).receiver = s.receiver := rfl
@[simp] theorem setCar_unbound (k : Slot) (r : Car) : (s.setCar k r).unbound = s.unbound := rfl
@[simp] theorem setCar_watch (k : Slot) (r : Car) : (s.setCar k r).watch = s.watch := rfl
@[simp] theorem setCar_notices (k : Slot) (r : Car) : (s.setCar k r).notices = s.notices := rfl
@[simp] theorem setCar_handsetErrors (k : Slot) (r : Car) : (s.setCar k r).handsetErrors = s.handsetErrors := rfl
@[simp] theorem setCar_handsetDuplicates (k : Slot) (r : Car) : (s.setCar k r).handsetDuplicates = s.handsetDuplicates := rfl
@[simp] theorem setCar_cars (k : Slot) (r : Car) : (s.setCar k r).cars = s.cars.set k r := rfl
@[simp] theorem setCar_rail (k : Slot) (r : Car) : (s.setCar k r).rail = s.rail := rfl
@[simp] theorem setCar_track (k : Slot) (r : Car) : (s.setCar k r).track = s.track := rfl
@[simp] theorem setCar_cautionCause (k : Slot) (r : Car) : (s.setCar k r).cautionCause = s.cautionCause := rfl
@[simp] theorem setCar_lastWake (k : Slot) (r : Car) : (s.setCar k r).lastWake = s.lastWake := rfl
@[simp] theorem setCar_railFaultNote (k : Slot) (r : Car) : (s.setCar k r).railFaultNote = s.railFaultNote := rfl
@[simp] theorem setCar_railflt (k : Slot) (r : Car) : (s.setCar k r).railflt = s.railflt := rfl
@[simp] theorem setCar_options (k : Slot) (r : Car) : (s.setCar k r).options = s.options := rfl
@[simp] theorem setCar_cautionRequests (k : Slot) (r : Car) : (s.setCar k r).cautionRequests = s.cautionRequests := rfl
@[simp] theorem setCar_nodes (k : Slot) (r : Car) : (s.setCar k r).nodes = s.nodes := rfl
@[simp] theorem setCar_throws (k : Slot) (r : Car) : (s.setCar k r).throws = s.throws := rfl
@[simp] theorem setCar_throwSending (k : Slot) (r : Car) : (s.setCar k r).throwSending = s.throwSending := rfl
@[simp] theorem setCar_nodeErrors (k : Slot) (r : Car) : (s.setCar k r).nodeErrors = s.nodeErrors := rfl
@[simp] theorem setCar_strayReports (k : Slot) (r : Car) : (s.setCar k r).strayReports = s.strayReports := rfl
@[simp] theorem setCar_positions (k : Slot) (r : Car) : (s.setCar k r).positions = s.positions := rfl
@[simp] theorem setCar_sections (k : Slot) (r : Car) : (s.setCar k r).sections = s.sections := rfl
@[simp] theorem setCar_lfsr (k : Slot) (r : Car) : (s.setCar k r).lfsr = s.lfsr := rfl
@[simp] theorem setCar_decisions (k : Slot) (r : Car) : (s.setCar k r).decisions = s.decisions := rfl
@[simp] theorem setCar_decisionOverflows (k : Slot) (r : Car) : (s.setCar k r).decisionOverflows = s.decisionOverflows := rfl
@[simp] theorem setCar_pairing (k : Slot) (r : Car) : (s.setCar k r).pairing = s.pairing := rfl
@[simp] theorem setCar_result (k : Slot) (r : Car) : (s.setCar k r).result = s.result := rfl
@[simp] theorem setCar_params (k : Slot) (r : Car) : (s.setCar k r).params = s.params := rfl
@[simp] theorem setCar_store (k : Slot) (r : Car) : (s.setCar k r).store = s.store := rfl

/-! ### mapCars -/

@[simp] theorem mapCars_pending (f : Car → Car) : (s.mapCars f).pending = s.pending := rfl
@[simp] theorem mapCars_held (f : Car → Car) : (s.mapCars f).held = s.held := rfl
@[simp] theorem mapCars_now (f : Car → Car) : (s.mapCars f).now = s.now := rfl
@[simp] theorem mapCars_served (f : Car → Car) : (s.mapCars f).served = s.served := rfl
@[simp] theorem mapCars_flags (f : Car → Car) : (s.mapCars f).flags = s.flags := rfl
@[simp] theorem mapCars_enables (f : Car → Car) : (s.mapCars f).enables = s.enables := rfl
@[simp] theorem mapCars_response (f : Car → Car) : (s.mapCars f).response = s.response := rfl
@[simp] theorem mapCars_softResetDue (f : Car → Car) : (s.mapCars f).softResetDue = s.softResetDue := rfl
@[simp] theorem mapCars_receiver (f : Car → Car) : (s.mapCars f).receiver = s.receiver := rfl
@[simp] theorem mapCars_unbound (f : Car → Car) : (s.mapCars f).unbound = s.unbound := rfl
@[simp] theorem mapCars_watch (f : Car → Car) : (s.mapCars f).watch = s.watch := rfl
@[simp] theorem mapCars_notices (f : Car → Car) : (s.mapCars f).notices = s.notices := rfl
@[simp] theorem mapCars_handsetErrors (f : Car → Car) : (s.mapCars f).handsetErrors = s.handsetErrors := rfl
@[simp] theorem mapCars_handsetDuplicates (f : Car → Car) : (s.mapCars f).handsetDuplicates = s.handsetDuplicates := rfl
@[simp] theorem mapCars_cars (f : Car → Car) : (s.mapCars f).cars = Vector.ofFn fun k : Slot => f s.cars[k] := rfl
@[simp] theorem mapCars_rail (f : Car → Car) : (s.mapCars f).rail = s.rail := rfl
@[simp] theorem mapCars_track (f : Car → Car) : (s.mapCars f).track = s.track := rfl
@[simp] theorem mapCars_cautionCause (f : Car → Car) : (s.mapCars f).cautionCause = s.cautionCause := rfl
@[simp] theorem mapCars_lastWake (f : Car → Car) : (s.mapCars f).lastWake = s.lastWake := rfl
@[simp] theorem mapCars_railFaultNote (f : Car → Car) : (s.mapCars f).railFaultNote = s.railFaultNote := rfl
@[simp] theorem mapCars_railflt (f : Car → Car) : (s.mapCars f).railflt = s.railflt := rfl
@[simp] theorem mapCars_options (f : Car → Car) : (s.mapCars f).options = s.options := rfl
@[simp] theorem mapCars_cautionRequests (f : Car → Car) : (s.mapCars f).cautionRequests = s.cautionRequests := rfl
@[simp] theorem mapCars_nodes (f : Car → Car) : (s.mapCars f).nodes = s.nodes := rfl
@[simp] theorem mapCars_throws (f : Car → Car) : (s.mapCars f).throws = s.throws := rfl
@[simp] theorem mapCars_throwSending (f : Car → Car) : (s.mapCars f).throwSending = s.throwSending := rfl
@[simp] theorem mapCars_nodeErrors (f : Car → Car) : (s.mapCars f).nodeErrors = s.nodeErrors := rfl
@[simp] theorem mapCars_strayReports (f : Car → Car) : (s.mapCars f).strayReports = s.strayReports := rfl
@[simp] theorem mapCars_positions (f : Car → Car) : (s.mapCars f).positions = s.positions := rfl
@[simp] theorem mapCars_sections (f : Car → Car) : (s.mapCars f).sections = s.sections := rfl
@[simp] theorem mapCars_lfsr (f : Car → Car) : (s.mapCars f).lfsr = s.lfsr := rfl
@[simp] theorem mapCars_decisions (f : Car → Car) : (s.mapCars f).decisions = s.decisions := rfl
@[simp] theorem mapCars_decisionOverflows (f : Car → Car) : (s.mapCars f).decisionOverflows = s.decisionOverflows := rfl
@[simp] theorem mapCars_pairing (f : Car → Car) : (s.mapCars f).pairing = s.pairing := rfl
@[simp] theorem mapCars_result (f : Car → Car) : (s.mapCars f).result = s.result := rfl
@[simp] theorem mapCars_params (f : Car → Car) : (s.mapCars f).params = s.params := rfl
@[simp] theorem mapCars_store (f : Car → Car) : (s.mapCars f).store = s.store := rfl

/-! ### setWatch -/

@[simp] theorem setWatch_pending (k : Slot) (w : Option TrackTime) : (s.setWatch k w).pending = s.pending := rfl
@[simp] theorem setWatch_held (k : Slot) (w : Option TrackTime) : (s.setWatch k w).held = s.held := rfl
@[simp] theorem setWatch_now (k : Slot) (w : Option TrackTime) : (s.setWatch k w).now = s.now := rfl
@[simp] theorem setWatch_served (k : Slot) (w : Option TrackTime) : (s.setWatch k w).served = s.served := rfl
@[simp] theorem setWatch_flags (k : Slot) (w : Option TrackTime) : (s.setWatch k w).flags = s.flags := rfl
@[simp] theorem setWatch_enables (k : Slot) (w : Option TrackTime) : (s.setWatch k w).enables = s.enables := rfl
@[simp] theorem setWatch_response (k : Slot) (w : Option TrackTime) : (s.setWatch k w).response = s.response := rfl
@[simp] theorem setWatch_softResetDue (k : Slot) (w : Option TrackTime) : (s.setWatch k w).softResetDue = s.softResetDue := rfl
@[simp] theorem setWatch_receiver (k : Slot) (w : Option TrackTime) : (s.setWatch k w).receiver = s.receiver := rfl
@[simp] theorem setWatch_unbound (k : Slot) (w : Option TrackTime) : (s.setWatch k w).unbound = s.unbound := rfl
@[simp] theorem setWatch_watch (k : Slot) (w : Option TrackTime) : (s.setWatch k w).watch = s.watch.set k w := rfl
@[simp] theorem setWatch_notices (k : Slot) (w : Option TrackTime) : (s.setWatch k w).notices = s.notices := rfl
@[simp] theorem setWatch_handsetErrors (k : Slot) (w : Option TrackTime) : (s.setWatch k w).handsetErrors = s.handsetErrors := rfl
@[simp] theorem setWatch_handsetDuplicates (k : Slot) (w : Option TrackTime) : (s.setWatch k w).handsetDuplicates = s.handsetDuplicates := rfl
@[simp] theorem setWatch_cars (k : Slot) (w : Option TrackTime) : (s.setWatch k w).cars = s.cars := rfl
@[simp] theorem setWatch_rail (k : Slot) (w : Option TrackTime) : (s.setWatch k w).rail = s.rail := rfl
@[simp] theorem setWatch_track (k : Slot) (w : Option TrackTime) : (s.setWatch k w).track = s.track := rfl
@[simp] theorem setWatch_cautionCause (k : Slot) (w : Option TrackTime) : (s.setWatch k w).cautionCause = s.cautionCause := rfl
@[simp] theorem setWatch_lastWake (k : Slot) (w : Option TrackTime) : (s.setWatch k w).lastWake = s.lastWake := rfl
@[simp] theorem setWatch_railFaultNote (k : Slot) (w : Option TrackTime) : (s.setWatch k w).railFaultNote = s.railFaultNote := rfl
@[simp] theorem setWatch_railflt (k : Slot) (w : Option TrackTime) : (s.setWatch k w).railflt = s.railflt := rfl
@[simp] theorem setWatch_options (k : Slot) (w : Option TrackTime) : (s.setWatch k w).options = s.options := rfl
@[simp] theorem setWatch_cautionRequests (k : Slot) (w : Option TrackTime) : (s.setWatch k w).cautionRequests = s.cautionRequests := rfl
@[simp] theorem setWatch_nodes (k : Slot) (w : Option TrackTime) : (s.setWatch k w).nodes = s.nodes := rfl
@[simp] theorem setWatch_throws (k : Slot) (w : Option TrackTime) : (s.setWatch k w).throws = s.throws := rfl
@[simp] theorem setWatch_throwSending (k : Slot) (w : Option TrackTime) : (s.setWatch k w).throwSending = s.throwSending := rfl
@[simp] theorem setWatch_nodeErrors (k : Slot) (w : Option TrackTime) : (s.setWatch k w).nodeErrors = s.nodeErrors := rfl
@[simp] theorem setWatch_strayReports (k : Slot) (w : Option TrackTime) : (s.setWatch k w).strayReports = s.strayReports := rfl
@[simp] theorem setWatch_positions (k : Slot) (w : Option TrackTime) : (s.setWatch k w).positions = s.positions := rfl
@[simp] theorem setWatch_sections (k : Slot) (w : Option TrackTime) : (s.setWatch k w).sections = s.sections := rfl
@[simp] theorem setWatch_lfsr (k : Slot) (w : Option TrackTime) : (s.setWatch k w).lfsr = s.lfsr := rfl
@[simp] theorem setWatch_decisions (k : Slot) (w : Option TrackTime) : (s.setWatch k w).decisions = s.decisions := rfl
@[simp] theorem setWatch_decisionOverflows (k : Slot) (w : Option TrackTime) : (s.setWatch k w).decisionOverflows = s.decisionOverflows := rfl
@[simp] theorem setWatch_pairing (k : Slot) (w : Option TrackTime) : (s.setWatch k w).pairing = s.pairing := rfl
@[simp] theorem setWatch_result (k : Slot) (w : Option TrackTime) : (s.setWatch k w).result = s.result := rfl
@[simp] theorem setWatch_params (k : Slot) (w : Option TrackTime) : (s.setWatch k w).params = s.params := rfl
@[simp] theorem setWatch_store (k : Slot) (w : Option TrackTime) : (s.setWatch k w).store = s.store := rfl

/-! ### setNode -/

@[simp] theorem setNode_pending (a : Addr) (n : Node) : (s.setNode a n).pending = s.pending := rfl
@[simp] theorem setNode_held (a : Addr) (n : Node) : (s.setNode a n).held = s.held := rfl
@[simp] theorem setNode_now (a : Addr) (n : Node) : (s.setNode a n).now = s.now := rfl
@[simp] theorem setNode_served (a : Addr) (n : Node) : (s.setNode a n).served = s.served := rfl
@[simp] theorem setNode_flags (a : Addr) (n : Node) : (s.setNode a n).flags = s.flags := rfl
@[simp] theorem setNode_enables (a : Addr) (n : Node) : (s.setNode a n).enables = s.enables := rfl
@[simp] theorem setNode_response (a : Addr) (n : Node) : (s.setNode a n).response = s.response := rfl
@[simp] theorem setNode_softResetDue (a : Addr) (n : Node) : (s.setNode a n).softResetDue = s.softResetDue := rfl
@[simp] theorem setNode_receiver (a : Addr) (n : Node) : (s.setNode a n).receiver = s.receiver := rfl
@[simp] theorem setNode_unbound (a : Addr) (n : Node) : (s.setNode a n).unbound = s.unbound := rfl
@[simp] theorem setNode_watch (a : Addr) (n : Node) : (s.setNode a n).watch = s.watch := rfl
@[simp] theorem setNode_notices (a : Addr) (n : Node) : (s.setNode a n).notices = s.notices := rfl
@[simp] theorem setNode_handsetErrors (a : Addr) (n : Node) : (s.setNode a n).handsetErrors = s.handsetErrors := rfl
@[simp] theorem setNode_handsetDuplicates (a : Addr) (n : Node) : (s.setNode a n).handsetDuplicates = s.handsetDuplicates := rfl
@[simp] theorem setNode_cars (a : Addr) (n : Node) : (s.setNode a n).cars = s.cars := rfl
@[simp] theorem setNode_rail (a : Addr) (n : Node) : (s.setNode a n).rail = s.rail := rfl
@[simp] theorem setNode_track (a : Addr) (n : Node) : (s.setNode a n).track = s.track := rfl
@[simp] theorem setNode_cautionCause (a : Addr) (n : Node) : (s.setNode a n).cautionCause = s.cautionCause := rfl
@[simp] theorem setNode_lastWake (a : Addr) (n : Node) : (s.setNode a n).lastWake = s.lastWake := rfl
@[simp] theorem setNode_railFaultNote (a : Addr) (n : Node) : (s.setNode a n).railFaultNote = s.railFaultNote := rfl
@[simp] theorem setNode_railflt (a : Addr) (n : Node) : (s.setNode a n).railflt = s.railflt := rfl
@[simp] theorem setNode_options (a : Addr) (n : Node) : (s.setNode a n).options = s.options := rfl
@[simp] theorem setNode_cautionRequests (a : Addr) (n : Node) : (s.setNode a n).cautionRequests = s.cautionRequests := rfl
@[simp] theorem setNode_nodes (a : Addr) (n : Node) : (s.setNode a n).nodes = s.nodes.set a n := rfl
@[simp] theorem setNode_throws (a : Addr) (n : Node) : (s.setNode a n).throws = s.throws := rfl
@[simp] theorem setNode_throwSending (a : Addr) (n : Node) : (s.setNode a n).throwSending = s.throwSending := rfl
@[simp] theorem setNode_nodeErrors (a : Addr) (n : Node) : (s.setNode a n).nodeErrors = s.nodeErrors := rfl
@[simp] theorem setNode_strayReports (a : Addr) (n : Node) : (s.setNode a n).strayReports = s.strayReports := rfl
@[simp] theorem setNode_positions (a : Addr) (n : Node) : (s.setNode a n).positions = s.positions := rfl
@[simp] theorem setNode_sections (a : Addr) (n : Node) : (s.setNode a n).sections = s.sections := rfl
@[simp] theorem setNode_lfsr (a : Addr) (n : Node) : (s.setNode a n).lfsr = s.lfsr := rfl
@[simp] theorem setNode_decisions (a : Addr) (n : Node) : (s.setNode a n).decisions = s.decisions := rfl
@[simp] theorem setNode_decisionOverflows (a : Addr) (n : Node) : (s.setNode a n).decisionOverflows = s.decisionOverflows := rfl
@[simp] theorem setNode_pairing (a : Addr) (n : Node) : (s.setNode a n).pairing = s.pairing := rfl
@[simp] theorem setNode_result (a : Addr) (n : Node) : (s.setNode a n).result = s.result := rfl
@[simp] theorem setNode_params (a : Addr) (n : Node) : (s.setNode a n).params = s.params := rfl
@[simp] theorem setNode_store (a : Addr) (n : Node) : (s.setNode a n).store = s.store := rfl

/-! ### setPosition -/

@[simp] theorem setPosition_pending (k : Slot) (p : Position) : (s.setPosition k p).pending = s.pending := rfl
@[simp] theorem setPosition_held (k : Slot) (p : Position) : (s.setPosition k p).held = s.held := rfl
@[simp] theorem setPosition_now (k : Slot) (p : Position) : (s.setPosition k p).now = s.now := rfl
@[simp] theorem setPosition_served (k : Slot) (p : Position) : (s.setPosition k p).served = s.served := rfl
@[simp] theorem setPosition_flags (k : Slot) (p : Position) : (s.setPosition k p).flags = s.flags := rfl
@[simp] theorem setPosition_enables (k : Slot) (p : Position) : (s.setPosition k p).enables = s.enables := rfl
@[simp] theorem setPosition_response (k : Slot) (p : Position) : (s.setPosition k p).response = s.response := rfl
@[simp] theorem setPosition_softResetDue (k : Slot) (p : Position) : (s.setPosition k p).softResetDue = s.softResetDue := rfl
@[simp] theorem setPosition_receiver (k : Slot) (p : Position) : (s.setPosition k p).receiver = s.receiver := rfl
@[simp] theorem setPosition_unbound (k : Slot) (p : Position) : (s.setPosition k p).unbound = s.unbound := rfl
@[simp] theorem setPosition_watch (k : Slot) (p : Position) : (s.setPosition k p).watch = s.watch := rfl
@[simp] theorem setPosition_notices (k : Slot) (p : Position) : (s.setPosition k p).notices = s.notices := rfl
@[simp] theorem setPosition_handsetErrors (k : Slot) (p : Position) : (s.setPosition k p).handsetErrors = s.handsetErrors := rfl
@[simp] theorem setPosition_handsetDuplicates (k : Slot) (p : Position) : (s.setPosition k p).handsetDuplicates = s.handsetDuplicates := rfl
@[simp] theorem setPosition_cars (k : Slot) (p : Position) : (s.setPosition k p).cars = s.cars := rfl
@[simp] theorem setPosition_rail (k : Slot) (p : Position) : (s.setPosition k p).rail = s.rail := rfl
@[simp] theorem setPosition_track (k : Slot) (p : Position) : (s.setPosition k p).track = s.track := rfl
@[simp] theorem setPosition_cautionCause (k : Slot) (p : Position) : (s.setPosition k p).cautionCause = s.cautionCause := rfl
@[simp] theorem setPosition_lastWake (k : Slot) (p : Position) : (s.setPosition k p).lastWake = s.lastWake := rfl
@[simp] theorem setPosition_railFaultNote (k : Slot) (p : Position) : (s.setPosition k p).railFaultNote = s.railFaultNote := rfl
@[simp] theorem setPosition_railflt (k : Slot) (p : Position) : (s.setPosition k p).railflt = s.railflt := rfl
@[simp] theorem setPosition_options (k : Slot) (p : Position) : (s.setPosition k p).options = s.options := rfl
@[simp] theorem setPosition_cautionRequests (k : Slot) (p : Position) : (s.setPosition k p).cautionRequests = s.cautionRequests := rfl
@[simp] theorem setPosition_nodes (k : Slot) (p : Position) : (s.setPosition k p).nodes = s.nodes := rfl
@[simp] theorem setPosition_throws (k : Slot) (p : Position) : (s.setPosition k p).throws = s.throws := rfl
@[simp] theorem setPosition_throwSending (k : Slot) (p : Position) : (s.setPosition k p).throwSending = s.throwSending := rfl
@[simp] theorem setPosition_nodeErrors (k : Slot) (p : Position) : (s.setPosition k p).nodeErrors = s.nodeErrors := rfl
@[simp] theorem setPosition_strayReports (k : Slot) (p : Position) : (s.setPosition k p).strayReports = s.strayReports := rfl
@[simp] theorem setPosition_positions (k : Slot) (p : Position) : (s.setPosition k p).positions = s.positions.set k p := rfl
@[simp] theorem setPosition_sections (k : Slot) (p : Position) : (s.setPosition k p).sections = s.sections := rfl
@[simp] theorem setPosition_lfsr (k : Slot) (p : Position) : (s.setPosition k p).lfsr = s.lfsr := rfl
@[simp] theorem setPosition_decisions (k : Slot) (p : Position) : (s.setPosition k p).decisions = s.decisions := rfl
@[simp] theorem setPosition_decisionOverflows (k : Slot) (p : Position) : (s.setPosition k p).decisionOverflows = s.decisionOverflows := rfl
@[simp] theorem setPosition_pairing (k : Slot) (p : Position) : (s.setPosition k p).pairing = s.pairing := rfl
@[simp] theorem setPosition_result (k : Slot) (p : Position) : (s.setPosition k p).result = s.result := rfl
@[simp] theorem setPosition_params (k : Slot) (p : Position) : (s.setPosition k p).params = s.params := rfl
@[simp] theorem setPosition_store (k : Slot) (p : Position) : (s.setPosition k p).store = s.store := rfl

/-! ### setSection -/

@[simp] theorem setSection_pending (a : Addr) (sec : Option Section) : (s.setSection a sec).pending = s.pending := rfl
@[simp] theorem setSection_held (a : Addr) (sec : Option Section) : (s.setSection a sec).held = s.held := rfl
@[simp] theorem setSection_now (a : Addr) (sec : Option Section) : (s.setSection a sec).now = s.now := rfl
@[simp] theorem setSection_served (a : Addr) (sec : Option Section) : (s.setSection a sec).served = s.served := rfl
@[simp] theorem setSection_flags (a : Addr) (sec : Option Section) : (s.setSection a sec).flags = s.flags := rfl
@[simp] theorem setSection_enables (a : Addr) (sec : Option Section) : (s.setSection a sec).enables = s.enables := rfl
@[simp] theorem setSection_response (a : Addr) (sec : Option Section) : (s.setSection a sec).response = s.response := rfl
@[simp] theorem setSection_softResetDue (a : Addr) (sec : Option Section) : (s.setSection a sec).softResetDue = s.softResetDue := rfl
@[simp] theorem setSection_receiver (a : Addr) (sec : Option Section) : (s.setSection a sec).receiver = s.receiver := rfl
@[simp] theorem setSection_unbound (a : Addr) (sec : Option Section) : (s.setSection a sec).unbound = s.unbound := rfl
@[simp] theorem setSection_watch (a : Addr) (sec : Option Section) : (s.setSection a sec).watch = s.watch := rfl
@[simp] theorem setSection_notices (a : Addr) (sec : Option Section) : (s.setSection a sec).notices = s.notices := rfl
@[simp] theorem setSection_handsetErrors (a : Addr) (sec : Option Section) : (s.setSection a sec).handsetErrors = s.handsetErrors := rfl
@[simp] theorem setSection_handsetDuplicates (a : Addr) (sec : Option Section) : (s.setSection a sec).handsetDuplicates = s.handsetDuplicates := rfl
@[simp] theorem setSection_cars (a : Addr) (sec : Option Section) : (s.setSection a sec).cars = s.cars := rfl
@[simp] theorem setSection_rail (a : Addr) (sec : Option Section) : (s.setSection a sec).rail = s.rail := rfl
@[simp] theorem setSection_track (a : Addr) (sec : Option Section) : (s.setSection a sec).track = s.track := rfl
@[simp] theorem setSection_cautionCause (a : Addr) (sec : Option Section) : (s.setSection a sec).cautionCause = s.cautionCause := rfl
@[simp] theorem setSection_lastWake (a : Addr) (sec : Option Section) : (s.setSection a sec).lastWake = s.lastWake := rfl
@[simp] theorem setSection_railFaultNote (a : Addr) (sec : Option Section) : (s.setSection a sec).railFaultNote = s.railFaultNote := rfl
@[simp] theorem setSection_railflt (a : Addr) (sec : Option Section) : (s.setSection a sec).railflt = s.railflt := rfl
@[simp] theorem setSection_options (a : Addr) (sec : Option Section) : (s.setSection a sec).options = s.options := rfl
@[simp] theorem setSection_cautionRequests (a : Addr) (sec : Option Section) : (s.setSection a sec).cautionRequests = s.cautionRequests := rfl
@[simp] theorem setSection_nodes (a : Addr) (sec : Option Section) : (s.setSection a sec).nodes = s.nodes := rfl
@[simp] theorem setSection_throws (a : Addr) (sec : Option Section) : (s.setSection a sec).throws = s.throws := rfl
@[simp] theorem setSection_throwSending (a : Addr) (sec : Option Section) : (s.setSection a sec).throwSending = s.throwSending := rfl
@[simp] theorem setSection_nodeErrors (a : Addr) (sec : Option Section) : (s.setSection a sec).nodeErrors = s.nodeErrors := rfl
@[simp] theorem setSection_strayReports (a : Addr) (sec : Option Section) : (s.setSection a sec).strayReports = s.strayReports := rfl
@[simp] theorem setSection_positions (a : Addr) (sec : Option Section) : (s.setSection a sec).positions = s.positions := rfl
@[simp] theorem setSection_sections (a : Addr) (sec : Option Section) : (s.setSection a sec).sections = s.sections.set a sec := rfl
@[simp] theorem setSection_lfsr (a : Addr) (sec : Option Section) : (s.setSection a sec).lfsr = s.lfsr := rfl
@[simp] theorem setSection_decisions (a : Addr) (sec : Option Section) : (s.setSection a sec).decisions = s.decisions := rfl
@[simp] theorem setSection_decisionOverflows (a : Addr) (sec : Option Section) : (s.setSection a sec).decisionOverflows = s.decisionOverflows := rfl
@[simp] theorem setSection_pairing (a : Addr) (sec : Option Section) : (s.setSection a sec).pairing = s.pairing := rfl
@[simp] theorem setSection_result (a : Addr) (sec : Option Section) : (s.setSection a sec).result = s.result := rfl
@[simp] theorem setSection_params (a : Addr) (sec : Option Section) : (s.setSection a sec).params = s.params := rfl
@[simp] theorem setSection_store (a : Addr) (sec : Option Section) : (s.setSection a sec).store = s.store := rfl

/-! ### mapSections -/

@[simp] theorem mapSections_pending (f : Section → Section) : (s.mapSections f).pending = s.pending := rfl
@[simp] theorem mapSections_held (f : Section → Section) : (s.mapSections f).held = s.held := rfl
@[simp] theorem mapSections_now (f : Section → Section) : (s.mapSections f).now = s.now := rfl
@[simp] theorem mapSections_served (f : Section → Section) : (s.mapSections f).served = s.served := rfl
@[simp] theorem mapSections_flags (f : Section → Section) : (s.mapSections f).flags = s.flags := rfl
@[simp] theorem mapSections_enables (f : Section → Section) : (s.mapSections f).enables = s.enables := rfl
@[simp] theorem mapSections_response (f : Section → Section) : (s.mapSections f).response = s.response := rfl
@[simp] theorem mapSections_softResetDue (f : Section → Section) : (s.mapSections f).softResetDue = s.softResetDue := rfl
@[simp] theorem mapSections_receiver (f : Section → Section) : (s.mapSections f).receiver = s.receiver := rfl
@[simp] theorem mapSections_unbound (f : Section → Section) : (s.mapSections f).unbound = s.unbound := rfl
@[simp] theorem mapSections_watch (f : Section → Section) : (s.mapSections f).watch = s.watch := rfl
@[simp] theorem mapSections_notices (f : Section → Section) : (s.mapSections f).notices = s.notices := rfl
@[simp] theorem mapSections_handsetErrors (f : Section → Section) : (s.mapSections f).handsetErrors = s.handsetErrors := rfl
@[simp] theorem mapSections_handsetDuplicates (f : Section → Section) : (s.mapSections f).handsetDuplicates = s.handsetDuplicates := rfl
@[simp] theorem mapSections_cars (f : Section → Section) : (s.mapSections f).cars = s.cars := rfl
@[simp] theorem mapSections_rail (f : Section → Section) : (s.mapSections f).rail = s.rail := rfl
@[simp] theorem mapSections_track (f : Section → Section) : (s.mapSections f).track = s.track := rfl
@[simp] theorem mapSections_cautionCause (f : Section → Section) : (s.mapSections f).cautionCause = s.cautionCause := rfl
@[simp] theorem mapSections_lastWake (f : Section → Section) : (s.mapSections f).lastWake = s.lastWake := rfl
@[simp] theorem mapSections_railFaultNote (f : Section → Section) : (s.mapSections f).railFaultNote = s.railFaultNote := rfl
@[simp] theorem mapSections_railflt (f : Section → Section) : (s.mapSections f).railflt = s.railflt := rfl
@[simp] theorem mapSections_options (f : Section → Section) : (s.mapSections f).options = s.options := rfl
@[simp] theorem mapSections_cautionRequests (f : Section → Section) : (s.mapSections f).cautionRequests = s.cautionRequests := rfl
@[simp] theorem mapSections_nodes (f : Section → Section) : (s.mapSections f).nodes = s.nodes := rfl
@[simp] theorem mapSections_throws (f : Section → Section) : (s.mapSections f).throws = s.throws := rfl
@[simp] theorem mapSections_throwSending (f : Section → Section) : (s.mapSections f).throwSending = s.throwSending := rfl
@[simp] theorem mapSections_nodeErrors (f : Section → Section) : (s.mapSections f).nodeErrors = s.nodeErrors := rfl
@[simp] theorem mapSections_strayReports (f : Section → Section) : (s.mapSections f).strayReports = s.strayReports := rfl
@[simp] theorem mapSections_positions (f : Section → Section) : (s.mapSections f).positions = s.positions := rfl
@[simp] theorem mapSections_sections (f : Section → Section) : (s.mapSections f).sections = Vector.ofFn fun a : Addr => s.sections[a].map f := rfl
@[simp] theorem mapSections_lfsr (f : Section → Section) : (s.mapSections f).lfsr = s.lfsr := rfl
@[simp] theorem mapSections_decisions (f : Section → Section) : (s.mapSections f).decisions = s.decisions := rfl
@[simp] theorem mapSections_decisionOverflows (f : Section → Section) : (s.mapSections f).decisionOverflows = s.decisionOverflows := rfl
@[simp] theorem mapSections_pairing (f : Section → Section) : (s.mapSections f).pairing = s.pairing := rfl
@[simp] theorem mapSections_result (f : Section → Section) : (s.mapSections f).result = s.result := rfl
@[simp] theorem mapSections_params (f : Section → Section) : (s.mapSections f).params = s.params := rfl
@[simp] theorem mapSections_store (f : Section → Section) : (s.mapSections f).store = s.store := rfl

/-! ### requestCaution -/

@[simp] theorem requestCaution_pending (c : CautionSource) : (s.requestCaution c).pending = s.pending := rfl
@[simp] theorem requestCaution_held (c : CautionSource) : (s.requestCaution c).held = s.held := rfl
@[simp] theorem requestCaution_now (c : CautionSource) : (s.requestCaution c).now = s.now := rfl
@[simp] theorem requestCaution_served (c : CautionSource) : (s.requestCaution c).served = s.served := rfl
@[simp] theorem requestCaution_flags (c : CautionSource) : (s.requestCaution c).flags = s.flags := rfl
@[simp] theorem requestCaution_enables (c : CautionSource) : (s.requestCaution c).enables = s.enables := rfl
@[simp] theorem requestCaution_response (c : CautionSource) : (s.requestCaution c).response = s.response := rfl
@[simp] theorem requestCaution_softResetDue (c : CautionSource) : (s.requestCaution c).softResetDue = s.softResetDue := rfl
@[simp] theorem requestCaution_receiver (c : CautionSource) : (s.requestCaution c).receiver = s.receiver := rfl
@[simp] theorem requestCaution_unbound (c : CautionSource) : (s.requestCaution c).unbound = s.unbound := rfl
@[simp] theorem requestCaution_watch (c : CautionSource) : (s.requestCaution c).watch = s.watch := rfl
@[simp] theorem requestCaution_notices (c : CautionSource) : (s.requestCaution c).notices = s.notices := rfl
@[simp] theorem requestCaution_handsetErrors (c : CautionSource) : (s.requestCaution c).handsetErrors = s.handsetErrors := rfl
@[simp] theorem requestCaution_handsetDuplicates (c : CautionSource) : (s.requestCaution c).handsetDuplicates = s.handsetDuplicates := rfl
@[simp] theorem requestCaution_cars (c : CautionSource) : (s.requestCaution c).cars = s.cars := rfl
@[simp] theorem requestCaution_rail (c : CautionSource) : (s.requestCaution c).rail = s.rail := rfl
@[simp] theorem requestCaution_track (c : CautionSource) : (s.requestCaution c).track = s.track := rfl
@[simp] theorem requestCaution_cautionCause (c : CautionSource) : (s.requestCaution c).cautionCause = s.cautionCause := rfl
@[simp] theorem requestCaution_lastWake (c : CautionSource) : (s.requestCaution c).lastWake = s.lastWake := rfl
@[simp] theorem requestCaution_railFaultNote (c : CautionSource) : (s.requestCaution c).railFaultNote = s.railFaultNote := rfl
@[simp] theorem requestCaution_railflt (c : CautionSource) : (s.requestCaution c).railflt = s.railflt := rfl
@[simp] theorem requestCaution_options (c : CautionSource) : (s.requestCaution c).options = s.options := rfl
@[simp] theorem requestCaution_cautionRequests (c : CautionSource) : (s.requestCaution c).cautionRequests = s.cautionRequests ++ [c] := rfl
@[simp] theorem requestCaution_nodes (c : CautionSource) : (s.requestCaution c).nodes = s.nodes := rfl
@[simp] theorem requestCaution_throws (c : CautionSource) : (s.requestCaution c).throws = s.throws := rfl
@[simp] theorem requestCaution_throwSending (c : CautionSource) : (s.requestCaution c).throwSending = s.throwSending := rfl
@[simp] theorem requestCaution_nodeErrors (c : CautionSource) : (s.requestCaution c).nodeErrors = s.nodeErrors := rfl
@[simp] theorem requestCaution_strayReports (c : CautionSource) : (s.requestCaution c).strayReports = s.strayReports := rfl
@[simp] theorem requestCaution_positions (c : CautionSource) : (s.requestCaution c).positions = s.positions := rfl
@[simp] theorem requestCaution_sections (c : CautionSource) : (s.requestCaution c).sections = s.sections := rfl
@[simp] theorem requestCaution_lfsr (c : CautionSource) : (s.requestCaution c).lfsr = s.lfsr := rfl
@[simp] theorem requestCaution_decisions (c : CautionSource) : (s.requestCaution c).decisions = s.decisions := rfl
@[simp] theorem requestCaution_decisionOverflows (c : CautionSource) : (s.requestCaution c).decisionOverflows = s.decisionOverflows := rfl
@[simp] theorem requestCaution_pairing (c : CautionSource) : (s.requestCaution c).pairing = s.pairing := rfl
@[simp] theorem requestCaution_result (c : CautionSource) : (s.requestCaution c).result = s.result := rfl
@[simp] theorem requestCaution_params (c : CautionSource) : (s.requestCaution c).params = s.params := rfl
@[simp] theorem requestCaution_store (c : CautionSource) : (s.requestCaution c).store = s.store := rfl

end Sys2Proof.Machine
end

