-- ==== Sys2Proof/Laws/Arbiter.lean ====
section
/-! SUPPORT. What the shared operations of the arbiter make of the state, in the words of Safety.lean: times, counters,
claim lists, decision records and auto-caution requests. -/

namespace Sys2Proof.Machine

/-! ### Times, counters, codes -/

theorem reached_iff (now t : TrackTime) : reached now t = true ↔ Reached now t := by
  unfold reached earlier signedDiff Reached
  simp

theorem reached_eq_false_iff (now t : TrackTime) : reached now t = false ↔ ¬ Reached now t := by
  rw [← reached_iff, Bool.not_eq_true]

theorem expired_some_iff (now t : TrackTime) : expired now (some t) = true ↔ Reached now t := reached_iff now t

theorem expired_none (now : TrackTime) : expired now none = false := rfl

theorem bump_eq (n : Nat) : bump n = min 65535 (n + 1) := rfl

theorem bump_le (n : Nat) : bump n ≤ 65535 := Nat.min_le_left _ _

theorem clamp_mem {lo hi : Nat} (h : lo ≤ hi) (v : Nat) : lo ≤ clamp lo hi v ∧ clamp lo hi v ≤ hi := by
  unfold clamp
  omega

theorem slotOfByte_slotCode (k : Slot) : slotOfByte (slotCode k) = some k := by
  revert k
  decide

theorem addrOfByte_addrCode (a : Addr) : addrOfByte (addrCode a) = some a := by
  revert a
  decide

theorem roleOfByte_code (r : Role) : roleOfByte r.code = some r := by
  cases r <;> decide

theorem eventMask_ofByte_code (m : Byte) : (EventMask.ofByte m).code = m := by
  revert m
  decide +kernel

/-! ### Claim lists -/

/-- A claim placed is the old list with one more member. -/
theorem insertClaim_perm (c : Claim) (l : List Claim) : (insertClaim c l).Perm (c :: l) := by
  induction l with
  | nil => exact List.Perm.refl _
  | cons h t ih =>
    unfold insertClaim
    split
    · exact List.Perm.refl _
    · exact (ih.cons h).trans (List.Perm.swap c h t)

theorem length_insertClaim (c : Claim) (l : List Claim) : (insertClaim c l).length = l.length + 1 :=
  (insertClaim_perm c l).length_eq

theorem mem_insertClaim {c d : Claim} {l : List Claim} : d ∈ insertClaim c l ↔ d = c ∨ d ∈ l := by
  rw [(insertClaim_perm c l).mem_iff, List.mem_cons]

/-- An added claim never makes the list longer than its capacity. -/
theorem addClaim_length (sec : Section) (now : TrackTime) (c : Claim) (h : sec.claims.length ≤ 6) :
    (sec.addClaim now c).claims.length ≤ 6 := by
  unfold Section.addClaim
  split
  · next hlt =>
    show (insertClaim c sec.claims).length ≤ 6
    rw [length_insertClaim]
    exact hlt
  · exact h

/-- The claims after an addition are the old ones and, where it was stored, the new one. -/
theorem mem_addClaim {sec : Section} {now : TrackTime} {c d : Claim} (h : d ∈ (sec.addClaim now c).claims) :
    d = c ∨ d ∈ sec.claims := by
  unfold Section.addClaim at h
  split at h
  · exact mem_insertClaim.mp h
  · exact .inr h

theorem removeTo_claims (sec : Section) (l : List Claim) : (sec.removeTo l).claims = l := by
  unfold Section.removeTo Section.finishClose
  dsimp only
  split_ifs <;> rfl

/-- A removal empties OVERFLOW with the list and may complete a close. -/
theorem removeTo_eq (sec : Section) (l : List Claim) : sec.removeTo l = afterRemoval sec l := by
  have busy (x : Section) : x.busy = false ↔ ∀ c ∈ x.claims, c.state ≠ .pending ∧ c.state ≠ .granted := by
    unfold Section.busy
    simp
  cases l with
  | nil =>
    unfold Section.removeTo Section.finishClose afterRemoval
    simp [busy]
    split_ifs <;> rfl
  | cons c t =>
    unfold Section.removeTo Section.finishClose afterRemoval
    simp only [List.isEmpty_cons, Bool.false_eq_true, if_false, busy, reduceCtorEq]
    split_ifs <;> rfl

/-! ### Records and requests -/

theorem writeDecision_eq (s : State) (d : Decision) : s.writeDecision d = recorded s d := rfl

theorem writeRecord_plain (s : State) (a : Addr) (car : CarRef) (o : DecisionOutcome) :
    s.writeRecord a car o none none false = recorded s (plainRecord s a car o) := rfl

/-- A denial is one DENY record and, under DROP, the arm taken. -/
theorem recordDenial_eq (s : State) (a : Addr) (k : Slot) (r : DenyReason) (x : Option CarRef) :
    s.recordDenial a k r x = retried (recorded s (denyRecord s a k r x)) k := by
  unfold State.recordDenial retried
  rw [show s.writeRecord a (.slot k) .deny (some r) x false = recorded s (denyRecord s a k r x) from rfl]
  generalize recorded s (denyRecord s a k r x) = u
  by_cases h : (u.car k).retryMode = .drop
  · rw [if_pos h]
    have hm : (match (u.car k).retryMode with
      | .drop => u.disarm k
      | .keep => u) = u.disarm k := by
      rw [h]
    exact hm
  · have h' : (u.car k).retryMode = .keep := by
      cases hm : (u.car k).retryMode
      · rfl
      · exact absurd hm h
    rw [if_neg h]
    simp only [h']

/-- An event that hands no request takes none. -/
theorem takeCautionRequests_nil (s : State) (h : s.cautionRequests = []) : s.takeCautionRequests = s := by
  unfold State.takeCautionRequests
  rw [h]
  show { s with cautionRequests := [] } = s
  rw [← h]

/-- A request that finds a state other than RUN, or a disabled source, changes nothing. -/
theorem takeCaution_ignored (s : State) (c : CautionSource) (h : s.track ≠ .run ∨ s.options.enables c = false) :
    s.takeCaution c = s := by
  unfold State.takeCaution
  rw [if_neg]
  rintro ⟨h1, h2⟩
  rcases h with h | h
  · exact h h1
  · rw [h] at h2
    exact absurd h2 (by decide)

/-- Requests that all find a state other than RUN are taken away and change nothing. -/
theorem takeCautionRequests_outside_run (s : State) (h : s.track ≠ .run) :
    s.takeCautionRequests = { s with cautionRequests := [] } := by
  have fold (l : List CautionSource) : l.foldl State.takeCaution s = s := by
    induction l with
    | nil => rfl
    | cons c t ih => rw [List.foldl_cons, takeCaution_ignored s c (.inl h), ih]
  show { (s.cautionRequests.foldl State.takeCaution s) with cautionRequests := [] } = _
  rw [fold]

/-! ### Sightings that change nothing -/

theorem sighting_stale (s : State) (x : Sighting) (k : Slot) (hk : x.car = some k) (h : (s.position k).stale x = true) :
    s.sighting x = s := by
  unfold State.sighting
  rw [hk]
  simp [h]

theorem sighting_repeated (s : State) (x : Sighting) (k : Slot) (hk : x.car = some k)
    (h : (s.position k).repeats x = true) : s.sighting x = s := by
  unfold State.sighting
  rw [hk]
  simp [h]

end Sys2Proof.Machine
end

