-- ==== Sys2Proof/Laws/Console.lean ====
section
/-! SUPPORT. What the gates of exec answer: `serve` for a console command, `take` for every other event. -/

namespace Sys2Proof.Machine

variable {s : State} {α : Type} {run : α → State → State}

theorem serve_of_held (req : Option α) (h : s.held = true) : s.serve req run = .next s := by
  simp [State.serve, h]

theorem serve_of_unserved (req : Option α) (h : s.held = false) (hs : s.served = false) :
    s.serve req run = .next (s.respond .notReady []) := by
  simp [State.serve, h, hs]

theorem serve_none_of_served (h : Served s) : s.serve (none : Option α) run = .next (s.respond .badArg []) := by
  simp [State.serve, h.1, h.2]

theorem serve_some_of_served (r : α) (h : Served s) : s.serve (some r) run = .next (run r s) := by
  simp [State.serve, h.1, h.2]

theorem take_of_held {run : State → State} (h : s.held = true) : s.take run = .next s := by
  simp [State.take, h]

theorem take_of_running {run : State → State} (h : s.held = false) : s.take run = .next (run s) := by
  simp [State.take, h]

/-- A console command or event always answers a next state: nothing stops the part. -/
theorem exec_answers_next (i : Instr) (s : State) : ∃ t, exec i s = .next t := by
  cases h : exec i s with
  | next t => exact ⟨t, rfl⟩
  | fault r => exact nomatch r
  | refused r =>
    exfalso
    cases i <;> revert h <;>
      simp [exec, execWake, execSleep, execHalt, execGo, execCaution, execSetOptions, execSetRail, execSetCar,
        execSetCurve, execSetWatch, execDrive, execArmLane, execUnbind, execReadCar, execSetNode, execReadNode,
        execSetSection, execOpenSection, execCloseSection, execReadSection, execOpenPairing, execClosePairing,
        execReadPairing, execSetPairing, execWipeBindings, execReadUnbound, execNewRace, execReadDecision,
        execReadStatus, execAckEvents, execSetEventEnable, execClearCounters, execReset, execUnknownCommand,
        execTransactionDiscard, execSoftReset, execPowerOnReset, execRstPinReset, execResetRelease,
        execStoreLoadCompletion, execHandsetFrame, execHandsetContinuityTimeout, execUnboundAgeOut,
        execWatchExpiry, execNoticeCompletion, execFrameStart, execSettleCompletion, execBurstCompletion,
        execRailfltAssertion, execRailfltDeassertion, execLfsrStep, execNodeFrame, execSilenceExpiry,
        execThrowTransmitStart, execThrowCompletion, execClaimLapse, execOverflowExpiry, execDecideTimeExpiry,
        execPairingWindowExpiry, execVerifyExpiry, execConfirmExpiry, execStoreWriteCompletion,
        execHandsetCharacter, State.serve, State.take] <;>
      split_ifs <;> (try split) <;> simp
end Sys2Proof.Machine
end

