-- ==== Sys2Proof/Laws/DenialForms.lean ====
section
/-! SUPPORT. What denials and grants make of the state, whole, in the closed forms of Safety.lean: one denial, a run of
denials at a section, the denials of a change of track state, a grant. -/

namespace Sys2Proof.Machine

/-! ### Windows -/

theorem position_level (s : State) (k : Slot) : (s.position k).level.getD 0 = levelOf s k := by
  unfold levelOf
  cases (s.position k).level <;> rfl

/-- A clear or release time at the clear level, whole (R132, R139). -/
theorem motion_clear (s : State) (sec : Section) (k : Slot) (sense : TrackTime) (d path x : Nat)
    (hx : x = d + path + (s.car k).carLength) :
    clearAfter sense ((s.motion sec (.slot k)).clearOffset x)
      = (windowOf (s.car k) (levelOf s k) sense d path).2 := by
  subst hx
  unfold Motion.clearOffset clearAfter windowOf State.motion
  simp only [position_level]
  generalize levelOf s k = n
  generalize s.car k = r
  by_cases h : n ≤ r.decelMargin
  · have h1 : (n : Int) - (r.decelMargin : Int) ≤ 0 := by omega
    have h2 : n - r.decelMargin = 0 := by omega
    simp [h1, h2]
  · have h1 : ¬ (n : Int) - (r.decelMargin : Int) ≤ 0 := by omega
    have h2 : ¬ n - r.decelMargin = 0 := by omega
    have h3 : ((n : Int) - (r.decelMargin : Int)).toNat = n - r.decelMargin := by omega
    rw [if_neg h1, h3]
    unfold travelCeil
    generalize ((d + path + r.carLength) * 255000 + (r.vtop * (n - r.decelMargin) - 1))
      / (r.vtop * (n - r.decelMargin)) = q
    by_cases hq : 65535 ≤ q
    · have : Config.travelMax ≤ min Config.travelMax q := by
        unfold Config.travelMax
        omega
      simp [h2, hq, this]
    · have h5 : ¬ Config.travelMax ≤ min Config.travelMax q := by
        unfold Config.travelMax
        omega
      have h4 : min Config.travelMax q = q := by
        unfold Config.travelMax
        omega
      rw [if_neg h5, h4]
      simp [h2, hq, after]

theorem motion_clearTime (s : State) (sec : Section) (k : Slot) (sense : TrackTime) (d : Nat) (kind : ClaimKind) :
    (s.motion sec (.slot k)).clearTime sec.map sense d kind
      = (windowOf (s.car k) (levelOf s k) sense d (sec.map.path kind)).2 :=
  motion_clear s sec k sense d _ _ rfl

theorem motion_releaseTime (s : State) (sec : Section) (k : Slot) (sense : TrackTime) :
    (s.motion sec (.slot k)).releaseTime sec.map sense
      = (windowOf (s.car k) (levelOf s k) sense sec.map.approach 0).2 :=
  motion_clear s sec k sense _ 0 _ rfl

theorem motion_enterOffset (s : State) (sec : Section) (k : Slot) (sense : TrackTime) (d path : Nat) :
    after sense ((s.motion sec (.slot k)).enterOffset d)
      = (windowOf (s.car k) (levelOf s k) sense d path).1 := by
  unfold Motion.enterOffset windowOf State.motion after travelFloor
  simp only [position_level]
  split
  · simp
  · split
    · next h => subst h; simp
    · rfl

theorem deniedClaim_eq (s : State) (sec : Section) (k : Slot) (c : Claim) (h : c.car = .slot k) :
    s.deniedClaim sec c = refusedClaim s sec.map k c := by
  unfold State.deniedClaim refusedClaim
  simp only [h, motion_clearTime, Claim.withClear]
  cases c.kind <;> simp [ClaimKind.entryLane, Lane.straight, SectionMap.path, lapseOf, after] <;> rfl

/-! ### Records -/

/-- The decision queue, its overflow counter and the flags after one record (R155). -/
def queueAfter (q : List Decision × Nat × LatchedFlags) (d : Decision) : List Decision × Nat × LatchedFlags :=
  if q.1.length < 16 then (q.1 ++ [d], q.2.1, q.2.2) else (q.1, min 65535 (q.2.1 + 1), { q.2.2 with overflow := true })

/-- What records make of the three parts of the state that they reach. -/
def queued (s : State) (ds : List Decision) : List Decision × Nat × LatchedFlags :=
  ds.foldl queueAfter (s.decisions, s.decisionOverflows, s.flags)

/-- A state with these three parts replaced. -/
def withQueue (s : State) (q : List Decision × Nat × LatchedFlags) : State :=
  { s with decisions := q.1, decisionOverflows := q.2.1, flags := q.2.2 }

theorem recordedAll_eq (s : State) (ds : List Decision) : recordedAll s ds = withQueue s (queued s ds) := by
  unfold recordedAll queued
  induction ds generalizing s with
  | nil => rfl
  | cons d ds ih =>
    rw [List.foldl_cons, List.foldl_cons, ih]
    unfold recorded queueAfter withQueue
    split <;> rfl

theorem recordedAll_append (s : State) (ds es : List Decision) :
    recordedAll s (ds ++ es) = recordedAll (recordedAll s ds) es := List.foldl_append ..

theorem recordedAll_nil (s : State) : recordedAll s [] = s := rfl

theorem recordedAll_cons (s : State) (d : Decision) (ds : List Decision) :
    recordedAll s (d :: ds) = recordedAll (recorded s d) ds := rfl

theorem recorded_eq (s : State) (d : Decision) : recorded s d = recordedAll s [d] := rfl

/-- Records reach three parts of the state, and read no other. -/
theorem queued_congr {s t : State} (h1 : s.decisions = t.decisions) (h2 : s.decisionOverflows = t.decisionOverflows)
    (h3 : s.flags = t.flags) (ds : List Decision) : queued s ds = queued t ds := by
  unfold queued
  rw [h1, h2, h3]

theorem queued_withQueue (s t : State) (ds es : List Decision) (h1 : t.decisions = (queued s ds).1)
    (h2 : t.decisionOverflows = (queued s ds).2.1) (h3 : t.flags = (queued s ds).2.2) :
    queued t es = queued s (ds ++ es) := by
  unfold queued at *
  rw [h1, h2, h3, List.foldl_append]

/-! ### One denial -/

theorem lateSources_append (ds es : List Decision) : lateSources (ds ++ es) = lateSources ds ++ lateSources es := by
  simp [lateSources]

/-- A state with other auto-caution requests. -/
def handed (s : State) (q : List CautionSource) : State := { s with cautionRequests := q }

theorem lateRecords_sources (s : State) (a : Addr) (sec : Section) (c : Claim) :
    lateSources (lateRecords s a sec c) = (lateConflicts sec c).map fun _ => CautionSource.lateConflict := by
  unfold lateSources lateRecords plainRecord
  induction lateConflicts sec c <;> simp_all

theorem lateConflictTest_eq (s : State) (a : Addr) (sec : Section) (c : Claim) (h : s.sectionAt a = some sec) :
    s.lateConflictTest a c = { recordedAll s (lateRecords s a sec c) with
      cautionRequests := s.cautionRequests ++ lateSources (lateRecords s a sec c) } := by
  unfold State.lateConflictTest
  rw [h, lateRecords_sources]
  simp only
  rw [show (sec.claims.filter fun g => decide (g.state = .granted) && conflicts sec.map.guard g c) = lateConflicts sec c
    from rfl]
  unfold lateRecords
  clear h
  generalize lateConflicts sec c = l
  have key (s t : State) (ht : t.now = s.now) : l.foldl (fun s g => s.recordLateConflict a c.car g) t
      = { recordedAll t (l.map fun g => { plainRecord s a c.car .lateConflict with other := some g.car }) with
          cautionRequests := t.cautionRequests ++ l.map fun _ => CautionSource.lateConflict } := by
    induction l generalizing t with
    | nil => simp [recordedAll]
    | cons g l ih =>
      rw [List.foldl_cons, ih]
      · have hr : t.recordLateConflict a c.car g
            = { recorded t { plainRecord s a c.car .lateConflict with other := some g.car } with
                cautionRequests := t.cautionRequests ++ [.lateConflict] } := by
          unfold State.recordLateConflict State.writeRecord State.requestCaution plainRecord
          rw [← ht]
          show ({ recorded t _ with cautionRequests := (recorded t _).cautionRequests ++ [.lateConflict] } : State) = _
          unfold recorded
          split <;> rfl
        rw [hr]
        simp only [List.map_cons, recordedAll_cons, List.append_assoc, List.singleton_append]
        generalize recorded t _ = u
        rw [recordedAll_eq, recordedAll_eq]
        rfl
      · unfold State.recordLateConflict State.requestCaution State.writeRecord State.writeDecision
        split <;> exact ht
  exact key s s rfl

/-- No two claims of a list belong to one car slot (R112). -/
def SingleClaims (l : List Claim) : Prop := ∀ k, (l.filter fun c => decide (c.car = .slot k)).length ≤ 1

theorem ClaimListsKept.single {s : State} (h : ClaimListsKept s) {a : Addr} {sec : Section} (hs : s.sectionAt a = some sec) :
    SingleClaims sec.claims := (h a sec hs).2.1

theorem SingleClaims.unique {l : List Claim} (h : SingleClaims l) {k : Slot} {c d : Claim} (hc : c ∈ l) (hd : d ∈ l)
    (h1 : c.car = .slot k) (h2 : d.car = .slot k) : c = d := by
  have hl := h k
  have m1 : c ∈ l.filter fun c => decide (c.car = .slot k) := List.mem_filter.mpr ⟨hc, by simp [h1]⟩
  have m2 : d ∈ l.filter fun c => decide (c.car = .slot k) := List.mem_filter.mpr ⟨hd, by simp [h2]⟩
  generalize l.filter (fun c => decide (c.car = .slot k)) = f at hl m1 m2
  cases f with
  | nil => exact absurd m1 List.not_mem_nil
  | cons x f =>
    cases f with
    | nil => rw [List.mem_singleton.mp m1, List.mem_singleton.mp m2]
    | cons y f => exact absurd hl (by simp)

theorem claimOf_some {sec : Section} {k : Slot} {c : Claim} (h : sec.claimOf k = some c) :
    c ∈ sec.claims ∧ c.car = .slot k := by
  have := List.find?_some h
  exact ⟨List.mem_of_find?_eq_some h, by simpa using this⟩

theorem claimOf_none {sec : Section} {k : Slot} (h : sec.claimOf k = none) (c : Claim) (hc : c ∈ sec.claims) :
    c.car ≠ .slot k := by
  have := List.find?_eq_none.mp h c hc
  simpa using this

/-- The slot's claim, where each slot has one at most. -/
theorem claimOf_eq {sec : Section} {k : Slot} {c : Claim} (hu : SingleClaims sec.claims) (hc : c ∈ sec.claims)
    (hk : c.car = .slot k) : sec.claimOf k = some c := by
  cases h : sec.claimOf k with
  | none => exact absurd hk (claimOf_none h c hc)
  | some d =>
    obtain ⟨h1, h2⟩ := claimOf_some h
    rw [hu.unique h1 hc h2 hk]

theorem filter_map_kept {α : Type} (p : α → Bool) (f : α → α) (l : List α)
    (h : ∀ c ∈ l, f c = c ∨ (p c = false ∧ p (f c) = false)) : (l.map f).filter p = l.filter p := by
  induction l with
  | nil => rfl
  | cons c l ih =>
    have ih := ih fun d hd => h d (List.mem_cons_of_mem c hd)
    rcases h c List.mem_cons_self with e | ⟨e1, e2⟩
    · simp [e, ih, List.filter_cons]
    · simp [e1, e2, ih]

theorem finishClose_eq (sec : Section) : sec.finishClose = { sec with
    admin := if sec.admin = .closing ∧ ∀ c ∈ sec.claims, c.state ≠ .pending ∧ c.state ≠ .granted then .closed
      else sec.admin } := by
  have hb : sec.busy = false ↔ ∀ c ∈ sec.claims, c.state ≠ .pending ∧ c.state ≠ .granted := by
    unfold Section.busy
    simp
  unfold Section.finishClose
  simp only [hb]
  split <;> rfl

theorem afterDenials_claims (s : State) (sec : Section) (ds : List Denial) :
    (afterDenials s sec ds).claims = sec.claims.map (claimAfter s sec.map ds) := rfl

theorem claimAfter_none (s : State) (m : SectionMap) (ds : List Denial) (c : Claim)
    (h : ∀ d ∈ ds, c.car ≠ .slot d.slot) : claimAfter s m ds c = c := by
  unfold claimAfter
  rw [List.find?_eq_none.mpr fun d hd => by simpa using h d hd]

theorem claimAfter_nil (s : State) (m : SectionMap) (c : Claim) : claimAfter s m [] c = c := rfl

theorem claimAfter_cons (s : State) (m : SectionMap) (d : Denial) (ds : List Denial) (c : Claim) :
    claimAfter s m (d :: ds) c = if c.car = .slot d.slot then refusedClaim s m d.slot c else claimAfter s m ds c := by
  unfold claimAfter
  by_cases h : c.car = .slot d.slot <;> simp [h]

/-- A denial keeps the car of the claim, and leaves it as it was or ENTERED. -/
theorem claimAfter_car (s : State) (m : SectionMap) (ds : List Denial) (c : Claim) :
    (claimAfter s m ds c).car = c.car ∧ (claimAfter s m ds c = c ∨ (claimAfter s m ds c).state = .entered) := by
  unfold claimAfter
  split
  · exact ⟨rfl, .inr rfl⟩
  · exact ⟨rfl, .inl rfl⟩

theorem afterDenials_eq (s : State) (sec : Section) (ds : List Denial) :
    afterDenials s sec ds = { sec with
      claims := (afterDenials s sec ds).claims
      admin := if sec.admin = .closing ∧ ds.length ≠ 0
          ∧ ∀ c ∈ (afterDenials s sec ds).claims, c.state ≠ .pending ∧ c.state ≠ .granted then .closed
        else sec.admin } := rfl

/-- The section after one denial. -/
theorem afterDenials_one (s : State) (sec : Section) (d : Denial) (c : Claim) (hu : SingleClaims sec.claims)
    (hc : sec.claimOf d.slot = some c) :
    afterDenials s sec [d] = (sec.putClaim d.slot (refusedClaim s sec.map d.slot c)).finishClose := by
  obtain ⟨hm, hk⟩ := claimOf_some hc
  have hmap : (afterDenials s sec [d]).claims = (sec.putClaim d.slot (refusedClaim s sec.map d.slot c)).claims := by
    rw [afterDenials_claims]
    apply List.map_congr_left
    intro x hx
    by_cases h : x.car = .slot d.slot
    · obtain rfl := hu.unique hx hm h hk
      simp [claimAfter_cons, hk]
    · simp [claimAfter_cons, claimAfter_nil, h]
  rw [finishClose_eq, afterDenials_eq, hmap]
  simp [Section.putClaim]

theorem lateConflicts_afterDenials (s : State) (sec : Section) (ds : List Denial) (c : Claim)
    (hg : ∀ d ∈ ds, ∀ x ∈ sec.claims, x.car = .slot d.slot → x.state ≠ .granted) :
    lateConflicts (afterDenials s sec ds) c = lateConflicts sec c := by
  unfold lateConflicts afterDenials
  apply filter_map_kept
  intro x hx
  by_cases h : ∀ d ∈ ds, x.car ≠ .slot d.slot
  · exact .inl (claimAfter_none s sec.map ds x h)
  · push Not at h
    obtain ⟨d, hd, he⟩ := h
    rcases (claimAfter_car s sec.map ds x).2 with e | e
    · exact .inl e
    · exact .inr ⟨by simp [hg d hd x hx he], by simp [e]⟩

theorem finishClose_map (sec : Section) : sec.finishClose.map = sec.map := by
  unfold Section.finishClose
  split <;> rfl

theorem finishClose_claims' (sec : Section) : sec.finishClose.claims = sec.claims := by
  unfold Section.finishClose
  split <;> rfl

theorem disarmed_one (s : State) (k : Slot) :
    (disarmed s fun j => decide (k = j))
      = s.cars.set k (if (s.car k).retryMode = .drop then { s.car k with armed := false } else s.car k) := by
  apply Vector.ext
  intro i hi
  unfold disarmed State.car
  by_cases h : (k : Nat) = i
  · subst h
    simp
  · have : k ≠ ⟨i, hi⟩ := fun e => h (by rw [e])
    simp [h, this]

theorem retried_eq (s : State) (k : Slot) : retried s k = { s with cars := disarmed s fun j => decide (k = j) } := by
  rw [disarmed_one]
  unfold retried
  split
  · rfl
  · simp only [State.car, Fin.getElem_fin, Vector.set_getElem_self]

/-- A denial whose claim stays, whole (R145, R153). -/
theorem deny_eq (s : State) (a : Addr) (d : Denial) (sec : Section) (c : Claim) (h : s.sectionAt a = some sec)
    (hc : sec.claimOf d.slot = some c) (hg : c.state ≠ .granted) (hu : SingleClaims sec.claims) :
    s.deny a d.slot d.reason d.other
      = handed (denials s a [d]) (s.cautionRequests ++ lateSources (denialsRecords s a [d])) := by
  obtain ⟨hm, hk⟩ := claimOf_some hc
  have h' : s.sections[(a : Nat)] = some sec := h
  have hlate : lateConflicts (sec.putClaim d.slot (refusedClaim s sec.map d.slot c)) (refusedClaim s sec.map d.slot c)
      = lateConflicts sec (refusedClaim s sec.map d.slot c) := by
    rw [← lateConflicts_afterDenials s sec [d] _ (by
      intro x hx y hy hs
      obtain rfl := List.mem_singleton.mp hx
      rw [hu.unique hy hm hs hk]
      exact hg), afterDenials_one s sec d c hu hc]
    unfold lateConflicts
    rw [finishClose_claims', finishClose_map]
  have hrec : denialsRecords s a [d] = denyRecord s a d.slot d.reason d.other
      :: lateRecords s a sec (refusedClaim s sec.map d.slot c) := by
    unfold denialsRecords denialRecords
    simp [h, hc]
  unfold State.deny
  simp only [h, hc, deniedClaim_eq s sec d.slot c hk, recordDenial_eq]
  generalize hR : refusedClaim s sec.map d.slot c = R at *
  generalize hP : sec.putClaim d.slot R = P at *
  have e2 : retried (recorded (s.setSection a (some P)) (denyRecord (s.setSection a (some P)) a d.slot d.reason d.other))
      d.slot = { recorded s (denyRecord s a d.slot d.reason d.other) with
        sections := s.sections.set a (some P), cars := disarmed s fun j => decide (d.slot = j) } := by
    rw [retried_eq, recorded_eq, recorded_eq, recordedAll_eq, recordedAll_eq]
    rfl
  rw [e2]
  have e3 : ({ recorded s (denyRecord s a d.slot d.reason d.other) with
        sections := s.sections.set a (some P), cars := disarmed s fun j => decide (d.slot = j) } : State).sectionAt a
      = some P := by
    simp [State.sectionAt]
  rw [lateConflictTest_eq _ _ _ _ e3]
  have e4 : lateRecords { recorded s (denyRecord s a d.slot d.reason d.other) with
      sections := s.sections.set a (some P), cars := disarmed s fun j => decide (d.slot = j) } a P R
      = lateRecords s a sec R := by
    unfold lateRecords
    rw [hlate, recorded_eq, recordedAll_eq]
    rfl
  rw [e4]
  unfold denials
  rw [h]
  simp only [hrec, afterDenials_one s sec d c hu hc, hR, hP, List.any_cons, List.any_nil, Bool.or_false]
  have e5 (dn : Decision) (l : List Decision) (hd : dn.outcome = .deny) : lateSources (dn :: l) = lateSources l := by
    unfold lateSources
    simp [hd]
  rw [recordedAll_cons, e5 _ _ rfl, recorded_eq, recordedAll_eq, recordedAll_eq, recordedAll_eq]
  unfold State.modifySection State.setSection State.sectionAt
  simp only [withQueue, Fin.getElem_fin, Vector.getElem_set_self, Option.map_some, Vector.set_set]
  rfl

theorem consumeArm_eq (s : State) (k : Slot) : s.consumeArm k = { s with
    cars := s.cars.set k { s.car k with armed := if (s.car k).laneMode = .latch then false else (s.car k).armed } } := by
  unfold State.consumeArm
  cases hm : (s.car k).laneMode with
  | latch => rfl
  | hold =>
    show s = { s with cars := s.cars.set k (s.car k) }
    rw [show s.cars.set k (s.car k) = s.cars from Vector.set_getElem_self ..]

/-- A grant that the transmit queue takes, whole (R147). -/
theorem grant_eq (s : State) (a : Addr) (k : Slot) (sec : Section) (c : Claim) (h : s.sectionAt a = some sec)
    (hc : sec.claimOf k = some c) (ht : s.throws.length < 4) : s.grant a k = granted s a sec k c := by
  have hk := (claimOf_some hc).2
  unfold State.grant
  rw [h]
  simp only [hc]
  rw [if_pos (show s.throws.length < Config.throwCapacity from ht)]
  unfold State.throwFor granted
  rw [hk, motion_releaseTime, consumeArm_eq]
  rfl

/-! ### Several denials -/

/-- Denials at a section that stands. -/
theorem denials_some (s : State) (a : Addr) (ds : List Denial) (sec : Section) (h : s.sectionAt a = some sec) :
    denials s a ds = { withQueue s (queued s (denialsRecords s a ds)) with
      sections := s.sections.set a (some (afterDenials s sec ds))
      cars := disarmed s fun k => ds.any fun d => decide (d.slot = k) } := by
  unfold denials
  rw [h]
  simp only [recordedAll_eq]

theorem denials_none (s : State) (a : Addr) (ds : List Denial) (h : s.sectionAt a = none) : denials s a ds = s := by
  unfold denials
  rw [h]

theorem disarmed_get (s : State) (f : Slot → Bool) (k : Slot) :
    (disarmed s f)[k] = if f k = true ∧ (s.car k).retryMode = .drop then { s.car k with armed := false } else s.car k := by
  unfold disarmed
  simp

theorem disarmed_twice (s t : State) (f g : Slot → Bool) (h : t.cars = disarmed s f) :
    disarmed t g = disarmed s fun k => f k || g k := by
  apply Vector.ext
  intro i hi
  have e := disarmed_get s f ⟨i, hi⟩
  have hc : t.car ⟨i, hi⟩ = (disarmed s f)[(⟨i, hi⟩ : Slot)] := by
    unfold State.car
    rw [h]
  unfold disarmed
  simp only [Vector.getElem_ofFn]
  rw [hc, e]
  cases hf : f ⟨i, hi⟩ <;> cases hg : g ⟨i, hi⟩ <;> cases hm : (s.car ⟨i, hi⟩).retryMode <;> simp [hm]

theorem disarmed_none (s : State) : (disarmed s fun _ => false) = s.cars := by
  apply Vector.ext
  intro i hi
  simp [disarmed, State.car]

theorem afterDenials_nil (s : State) (sec : Section) : afterDenials s sec [] = sec := by
  rw [afterDenials_eq, afterDenials_claims]
  simp [funext (claimAfter_nil s sec.map)]

theorem denials_nil (s : State) (a : Addr) : denials s a [] = s := by
  cases h : s.sectionAt a with
  | none => exact denials_none s a [] h
  | some sec =>
    have h' : s.sections[(a : Nat)] = some sec := h
    rw [denials_some s a [] sec h, afterDenials_nil]
    have e1 : denialsRecords s a [] = [] := by
      unfold denialsRecords
      rw [h]
      rfl
    have e2 : s.sections.set a (some sec) = s.sections := by
      rw [← h']
      exact Vector.set_getElem_self ..
    rw [e1, e2]
    simp only [List.any_nil, disarmed_none]
    rfl

/-- The claim a denial leaves does not depend on who else has been denied. -/
theorem refusedClaim_congr (s t : State) (m : SectionMap) (k : Slot) (c : Claim) (hp : t.positions = s.positions)
    (hc : t.car k = { s.car k with armed := (t.car k).armed }) : refusedClaim t m k c = refusedClaim s m k c := by
  unfold refusedClaim levelOf State.position
  rw [hp, hc]
  rfl

theorem denials_car (s : State) (a : Addr) (ds : List Denial) (k : Slot) :
    (denials s a ds).car k = { s.car k with armed := ((denials s a ds).car k).armed } := by
  cases h : s.sectionAt a with
  | none =>
    rw [denials_none s a ds h]
  | some sec =>
    have e : (denials s a ds).car k = (disarmed s fun k => ds.any fun d => decide (d.slot = k))[k] := by
      rw [denials_some s a ds sec h]
      rfl
    rw [e, disarmed_get]
    split <;> rfl

theorem afterDenials_claimOf (s : State) (sec : Section) (d : Denial) (k : Slot) (h : k ≠ d.slot) :
    (afterDenials s sec [d]).claimOf k = sec.claimOf k := by
  unfold Section.claimOf
  rw [afterDenials_claims]
  generalize sec.claims = l
  induction l with
  | nil => rfl
  | cons c l ih =>
    rw [List.map_cons, List.find?_cons, List.find?_cons, ih]
    by_cases hc : c.car = .slot d.slot
    · have h1 : (c.car == CarRef.slot k) = false :=
        beq_eq_false_iff_ne.mpr fun e => h (by rw [hc] at e; injection e with e; exact e.symm)
      simp [(claimAfter_car s sec.map [d] c).1, h1]
    · simp [claimAfter_cons, claimAfter_nil, hc]

theorem denials_records_cons (s : State) (a : Addr) (d : Denial) (ds : List Denial) (sec : Section)
    (h : s.sectionAt a = some sec) (hd : ∀ x ∈ ds, x.slot ≠ d.slot)
    (hg : ∀ x ∈ sec.claims, x.car = .slot d.slot → x.state ≠ .granted) :
    denialsRecords s a (d :: ds) = denialsRecords s a [d] ++ denialsRecords (denials s a [d]) a ds := by
  have hs : (denials s a [d]).sectionAt a = some (afterDenials s sec [d]) := by
    rw [denials_some s a [d] sec h]
    simp [State.sectionAt]
  have hp : (denials s a [d]).positions = s.positions := by
    rw [denials_some s a [d] sec h]
    rfl
  have hn : (denials s a [d]).now = s.now := by
    rw [denials_some s a [d] sec h]
    rfl
  unfold denialsRecords
  rw [h, hs]
  simp only [List.flatMap_cons, List.flatMap_nil, List.append_nil]
  congr 1
  apply List.flatMap_congr
  intro x hx
  unfold denialRecords denyRecord
  rw [hn, afterDenials_claimOf s sec d x.slot (hd x hx)]
  congr 1
  cases hc : sec.claimOf x.slot with
  | none => rfl
  | some c =>
    show lateRecords s a sec _ = lateRecords _ a _ _
    have hm : (afterDenials s sec [d]).map = sec.map := rfl
    rw [hm, refusedClaim_congr s (denials s a [d]) sec.map x.slot c hp (denials_car s a [d] x.slot)]
    unfold lateRecords plainRecord
    rw [hn, lateConflicts_afterDenials s sec [d] _ (by
      intro y hy z hz
      obtain rfl := List.mem_singleton.mp hy
      exact hg z hz)]

theorem closed_twice (ad : AdminState) (p q r : Prop) [Decidable p] [Decidable q] [Decidable r] (h1 : p → r) (h2 : q → r)
    (h3 : r → ¬ p → q) :
    (if (if ad = .closing ∧ p then .closed else ad) = AdminState.closing ∧ q then .closed
      else if ad = .closing ∧ p then .closed else ad) = if ad = .closing ∧ r then .closed else ad := by
  by_cases h : ad = .closing <;> by_cases hp : p <;> by_cases hq : q <;> by_cases hr : r <;> simp_all

theorem afterDenials_cons (s : State) (a : Addr) (d : Denial) (ds : List Denial) (sec : Section)
    (h : s.sectionAt a = some sec) (hd : ∀ x ∈ ds, x.slot ≠ d.slot) :
    afterDenials (denials s a [d]) (afterDenials s sec [d]) ds = afterDenials s sec (d :: ds) := by
  have hp : (denials s a [d]).positions = s.positions := by
    rw [denials_some s a [d] sec h]
    rfl
  have hcl : (afterDenials (denials s a [d]) (afterDenials s sec [d]) ds).claims = (afterDenials s sec (d :: ds)).claims := by
    rw [afterDenials_claims, afterDenials_claims, afterDenials_claims, List.map_map]
    apply List.map_congr_left
    intro c _
    have hm : (afterDenials s sec [d]).map = sec.map := rfl
    simp only [Function.comp_apply, hm, claimAfter_cons, claimAfter_nil]
    by_cases hc : c.car = .slot d.slot
    · rw [if_pos hc, if_pos hc]
      refine claimAfter_none _ _ _ _ fun x hx e => hd x hx ?_
      have e : c.car = .slot x.slot := e
      rw [hc] at e
      injection e with e
      exact e.symm
    · rw [if_neg hc, if_neg hc]
      unfold claimAfter
      split
      · next x _ => exact refusedClaim_congr s _ sec.map x.slot c hp (denials_car s a [d] x.slot)
      · rfl
  have hadmin : (∀ c ∈ (afterDenials s sec [d]).claims, c.state ≠ .pending ∧ c.state ≠ .granted) →
      ∀ c ∈ (afterDenials s sec (d :: ds)).claims, c.state ≠ .pending ∧ c.state ≠ .granted := by
    intro hb c hc
    rw [← hcl, afterDenials_claims] at hc
    obtain ⟨x, hx, rfl⟩ := List.mem_map.mp hc
    rcases (claimAfter_car (denials s a [d]) (afterDenials s sec [d]).map ds x).2 with e | e
    · rw [e]
      exact hb x hx
    · rw [e]
      decide
  rw [afterDenials_eq (denials s a [d]), hcl]
  rw [afterDenials_eq s sec (d :: ds)]
  rw [afterDenials_eq s sec [d]]
  have hnil : ds = [] → (afterDenials s sec (d :: ds)).claims = (afterDenials s sec [d]).claims := by
    rintro rfl
    rfl
  generalize (afterDenials s sec [d]).claims = l1 at *
  generalize (afterDenials s sec (d :: ds)).claims = l2 at *
  clear hcl hp
  congr 1
  refine closed_twice sec.admin _ _ _ (fun h => ⟨by simp, hadmin h.2⟩) (fun h => ⟨by simp, h.2⟩) fun h g => ⟨?_, h.2⟩
  intro h0
  have h0 : ds = [] := List.length_eq_zero_iff.mp h0
  rw [hnil h0] at h
  exact g ⟨by simp, h.2⟩

theorem denials_section (s : State) (a : Addr) (ds : List Denial) (sec : Section) (h : s.sectionAt a = some sec) :
    (denials s a ds).sectionAt a = some (afterDenials s sec ds) := by
  rw [denials_some s a ds sec h]
  simp [State.sectionAt]

theorem denials_other (s : State) (a b : Addr) (ds : List Denial) (hb : b ≠ a) :
    (denials s a ds).sectionAt b = s.sectionAt b := by
  cases h : s.sectionAt a with
  | none => rw [denials_none s a ds h]
  | some sec =>
    rw [denials_some s a ds sec h]
    have : (a : Nat) ≠ b := fun e => hb (Fin.ext e.symm)
    simp [State.sectionAt, this]

/-- Denials one after the other are denials together. -/
theorem denials_cons (s : State) (a : Addr) (d : Denial) (ds : List Denial) (hd : ∀ x ∈ ds, x.slot ≠ d.slot)
    (hg : ∀ sec, s.sectionAt a = some sec → ∀ x ∈ sec.claims, x.car = .slot d.slot → x.state ≠ .granted) :
    denials (denials s a [d]) a ds = denials s a (d :: ds) := by
  cases h : s.sectionAt a with
  | none => rw [denials_none s a [d] h, denials_none s a ds h, denials_none s a _ h]
  | some sec =>
    rw [denials_some _ a ds _ (denials_section s a [d] sec h), afterDenials_cons s a d ds sec h hd,
      denials_some s a (d :: ds) sec h]
    have e1 : disarmed (denials s a [d]) (fun k => ds.any fun d => decide (d.slot = k))
        = disarmed s fun k => (d :: ds).any fun d => decide (d.slot = k) := by
      rw [disarmed_twice s (denials s a [d]) (fun k => [d].any fun d => decide (d.slot = k)) _ (by
        rw [denials_some s a [d] sec h])]
      simp
    have e2 : queued (denials s a [d]) (denialsRecords (denials s a [d]) a ds)
        = queued s (denialsRecords s a (d :: ds)) := by
      rw [denials_records_cons s a d ds sec h hd (hg sec h)]
      apply queued_withQueue <;> rw [denials_some s a [d] sec h] <;> rfl
    rw [e1, e2, denials_some s a [d] sec h]
    simp only [Vector.set_set]
    rfl

/-- Denials neither read nor change the auto-caution requests. -/
theorem denials_handed (s : State) (q : List CautionSource) (a : Addr) (ds : List Denial) :
    denials (handed s q) a ds = handed (denials s a ds) q := by
  cases h : s.sectionAt a with
  | none => rw [denials_none (handed s q) a ds h, denials_none s a ds h]
  | some sec =>
    rw [denials_some (handed s q) a ds sec h, denials_some s a ds sec h]
    rfl

theorem denials_cautionRequests (s : State) (a : Addr) (ds : List Denial) :
    (denials s a ds).cautionRequests = s.cautionRequests := by
  cases h : s.sectionAt a with
  | none => rw [denials_none s a ds h]
  | some sec =>
    rw [denials_some s a ds sec h]
    rfl

theorem afterDenials_single {s : State} {sec : Section} (ds : List Denial) (h : SingleClaims sec.claims) :
    SingleClaims (afterDenials s sec ds).claims := by
  intro k
  rw [afterDenials_claims, List.filter_map, List.length_map]
  refine le_of_eq_of_le (congrArg List.length ?_) (h k)
  apply List.filter_congr
  intro c _
  simp only [Function.comp_apply, (claimAfter_car s sec.map ds c).1]

/-- A run of denials of requests that stand, whole (R145, R153). -/
theorem foldl_deny (a : Addr) : ∀ (ds : List Denial) (s : State) (sec : Section), s.sectionAt a = some sec →
    SingleClaims sec.claims → (ds.map Denial.slot).Nodup →
    (∀ d ∈ ds, ∃ c, sec.claimOf d.slot = some c ∧ c.state ≠ .granted) →
    ds.foldl (fun s d => s.deny a d.slot d.reason d.other) s
      = handed (denials s a ds) (s.cautionRequests ++ lateSources (denialsRecords s a ds))
  | [], s, sec, h, _, _, _ => by
    have : denialsRecords s a [] = [] := by
      unfold denialsRecords
      rw [h]
      rfl
    rw [List.foldl_nil, denials_nil, this]
    simp [lateSources, handed]
  | d :: ds, s, sec, h, hu, hn, hc => by
    obtain ⟨c, hc1, hc2⟩ := hc d List.mem_cons_self
    obtain ⟨hm, hk⟩ := claimOf_some hc1
    have hn : d.slot ∉ ds.map Denial.slot ∧ (ds.map Denial.slot).Nodup := by simpa using hn
    have hd : ∀ x ∈ ds, x.slot ≠ d.slot := fun x hx e => hn.1 (e ▸ List.mem_map_of_mem hx)
    have hg : ∀ x ∈ sec.claims, x.car = .slot d.slot → x.state ≠ .granted := fun x hx hs => by
      rw [hu.unique hx hm hs hk]
      exact hc2
    rw [List.foldl_cons, deny_eq s a d sec c h hc1 hc2 hu]
    have h1 : (denials s a [d]).sectionAt a = some (afterDenials s sec [d]) := denials_section s a [d] sec h
    rw [foldl_deny a ds (handed (denials s a [d]) (s.cautionRequests ++ lateSources (denialsRecords s a [d])))
      (afterDenials s sec [d]) h1 (afterDenials_single [d] hu) hn.2 ?_]
    · rw [denials_handed, denials_cons s a d ds hd (fun sec' h' => by
        obtain rfl := Option.some.inj (h.symm.trans h')
        exact hg), denials_records_cons s a d ds sec h hd hg]
      have e (u : State) (q : List CautionSource) : denialsRecords (handed u q) a ds = denialsRecords u a ds := rfl
      rw [e, lateSources_append, ← List.append_assoc]
      rfl
    · intro x hx
      rw [afterDenials_claimOf s sec d x.slot (hd x hx)]
      exact hc x (List.mem_cons_of_mem d hx)

theorem requestsAt_eq (s : State) (reason : DenyReason) (a : Addr) (sec : Section) (h : s.sectionAt a = some sec) :
    requestsAt s reason a = sec.pendingSlots.map fun k => { slot := k, reason := reason, other := none } := by
  unfold requestsAt Section.pendingSlots
  rw [h]
  simp only [List.map_filterMap]
  congr 1
  funext c
  cases c.state <;> cases c.car <;> rfl

theorem SingleClaims.tail {c : Claim} {l : List Claim} (h : SingleClaims (c :: l)) : SingleClaims l := fun k =>
  le_trans (List.Sublist.length_le ((List.sublist_cons_self c l).filter _)) (h k)

theorem pendingSlots_mem {sec : Section} {k : Slot} (h : k ∈ sec.pendingSlots) :
    ∃ c ∈ sec.claims, c.car = .slot k ∧ c.state = .pending := by
  obtain ⟨c, hc, he⟩ := List.mem_filterMap.mp h
  refine ⟨c, hc, ?_⟩
  revert he
  cases c.state <;> cases c.car <;> simp

theorem pendingSlots_nodup {sec : Section} (h : SingleClaims sec.claims) : sec.pendingSlots.Nodup := by
  revert h
  unfold Section.pendingSlots
  generalize sec.claims = l
  intro h
  induction l with
  | nil => exact List.nodup_nil
  | cons c l ih =>
    have ih := ih h.tail
    rw [List.filterMap_cons]
    split
    · exact ih
    · rename_i k hk
      refine List.nodup_cons.mpr ⟨fun hm => ?_, ih⟩
      obtain ⟨c', hc', he⟩ := List.mem_filterMap.mp hm
      have e1 : c.car = .slot k := by
        revert hk
        cases c.state <;> cases c.car <;> simp
      have e2 : c'.car = .slot k := by
        revert he
        cases c'.state <;> cases c'.car <;> simp
      have := h k
      rw [List.filter_cons_of_pos (by simp [e1])] at this
      have m : c' ∈ l.filter fun c => decide (c.car = .slot k) := List.mem_filter.mpr ⟨hc', by simp [e2]⟩
      have := List.length_pos_of_mem m
      simp only [List.length_cons] at *
      omega

/-- Every PENDING request of a section denied, whole (R116, R145, R151). -/
theorem denySection_eq (s : State) (reason : DenyReason) (a : Addr)
    (hu : ∀ sec, s.sectionAt a = some sec → SingleClaims sec.claims) :
    s.denySection reason a = handed (denials s a (requestsAt s reason a))
      (s.cautionRequests ++ lateSources (denialsRecords s a (requestsAt s reason a))) := by
  unfold State.denySection
  cases h : s.sectionAt a with
  | none =>
    have e1 : denialsRecords s a (requestsAt s reason a) = [] := by
      unfold denialsRecords
      rw [h]
    rw [denials_none s a _ h, e1]
    simp [lateSources, handed]
  | some sec =>
    have hp := requestsAt_eq s reason a sec h
    have e : (requestsAt s reason a).foldl (fun s d => s.deny a d.slot d.reason d.other) s
        = sec.pendingSlots.foldl (fun s k => s.deny a k reason none) s := by
      rw [hp, List.foldl_map]
    simp only
    rw [← e]
    refine foldl_deny a _ s sec h (hu sec h) ?_ ?_
    · rw [hp, List.map_map]
      exact (List.map_id sec.pendingSlots).symm ▸ pendingSlots_nodup (hu sec h)
    · intro d hd
      rw [hp] at hd
      obtain ⟨k, hk, rfl⟩ := List.mem_map.mp hd
      obtain ⟨c, hc, h1, h2⟩ := pendingSlots_mem hk
      exact ⟨c, claimOf_eq (hu sec h) hc h1, by rw [h2]; decide⟩

theorem denials_single {s : State} (a : Addr) (ds : List Denial)
    (hu : ∀ b sec, s.sectionAt b = some sec → SingleClaims sec.claims) :
    ∀ b sec, (denials s a ds).sectionAt b = some sec → SingleClaims sec.claims := by
  intro b sec hb
  by_cases e : b = a
  · subst e
    cases h : s.sectionAt b with
    | none =>
      rw [denials_none s b ds h] at hb
      exact hu b sec hb
    | some sec' =>
      rw [denials_section s b ds sec' h] at hb
      obtain rfl := Option.some.inj hb
      exact afterDenials_single ds (hu b sec' h)
  · rw [denials_other s a b ds e] at hb
    exact hu b sec hb

/-- The denials of a state that allows no crossing, whole (R151). -/
theorem denyForState_eq (s : State) (h : ClaimListsKept s) :
    s.denyForState = if s.crossingAllowed then s else requestsDenied s := by
  unfold State.denyForState
  split
  · rfl
  have hu : ∀ b sec, s.sectionAt b = some sec → SingleClaims sec.claims := fun b sec hb => h.single hb
  have key : ∀ (l : List Addr) (u : State) (q : List CautionSource),
      (∀ b sec, u.sectionAt b = some sec → SingleClaims sec.claims) →
      ∃ q', l.foldl (fun s a => s.denySection .state a) (handed u q)
        = handed (l.foldl (fun u a => denials u a (requestsAt u .state a)) u) q' := by
    intro l
    induction l with
    | nil => exact fun u q _ => ⟨q, rfl⟩
    | cons a l ih =>
      intro u q hu
      rw [List.foldl_cons, List.foldl_cons, denySection_eq (handed u q) .state a (fun sec hb => hu a sec hb),
        show requestsAt (handed u q) .state a = requestsAt u .state a from rfl, denials_handed]
      exact ih _ _ (denials_single a _ hu)
  have keep : ∀ (l : List Addr) (u : State),
      (l.foldl (fun u a => denials u a (requestsAt u .state a)) u).cautionRequests = u.cautionRequests := by
    intro l
    induction l with
    | nil => exact fun _ => rfl
    | cons a l ih =>
      intro u
      rw [List.foldl_cons, ih, denials_cautionRequests]
  obtain ⟨q, hq⟩ := key allAddrs s s.cautionRequests hu
  have e : handed s s.cautionRequests = s := rfl
  rw [e] at hq
  have hk := keep allAddrs s
  rw [hq, ← hk]
  unfold requestsDenied
  generalize allAddrs.foldl _ s = u
  rfl

/-! ### A section closed -/

theorem afterDenials_busy (s : State) (a : Addr) (r : DenyReason) (sec : Section) (h : s.sectionAt a = some sec)
    (hk : ClaimListsKept s) :
    (afterDenials s sec (requestsAt s r a)).busy = true ↔ ∃ c ∈ sec.claims, c.state = .granted := by
  have hu : SingleClaims sec.claims := hk.single h
  have key : ∀ c ∈ sec.claims, (claimAfter s sec.map (requestsAt s r a) c).state = if c.state = .pending then .entered else c.state := by
    intro c hc
    unfold claimAfter
    rw [requestsAt_eq s r a sec h]
    cases hf : (sec.pendingSlots.map fun k => ({ slot := k, reason := r, other := none } : Denial)).find?
        fun d : Denial => decide (c.car = CarRef.slot d.slot) with
    | some d =>
      obtain ⟨k, hm, rfl⟩ := List.mem_map.mp (List.mem_of_find?_eq_some hf)
      have he : c.car = .slot k := by simpa using List.find?_some hf
      obtain ⟨c', hc', h1, h2⟩ := pendingSlots_mem hm
      obtain rfl := hu.unique hc hc' he h1
      simp [h2, refusedClaim]
    | none =>
      by_cases hp : c.state = .pending
      · exfalso
        cases hcar : c.car with
        | anon =>
          have := ((hk a sec h).2.2 c hc).anon hcar
          rw [hp] at this
          exact nomatch this
        | slot k =>
          have hm : k ∈ sec.pendingSlots := List.mem_filterMap.mpr ⟨c, hc, by simp [hp, hcar]⟩
          have := List.find?_eq_none.mp hf _ (List.mem_map_of_mem hm)
          simp [hcar] at this
      · simp [hp]
  unfold Section.busy
  rw [afterDenials_claims]
  simp only [List.any_map, List.any_eq_true, Function.comp_apply]
  constructor
  · rintro ⟨c, hc, hs⟩
    rw [key c hc] at hs
    refine ⟨c, hc, ?_⟩
    by_cases hp : c.state = .pending
    · simp [hp] at hs
    · simpa [hp] using hs
  · rintro ⟨c, hc, hs⟩
    refine ⟨c, hc, ?_⟩
    rw [key c hc]
    simp [hs]

/-- CLOSE_SECTION with NOW, whole (R116). -/
theorem closeNow_eq (s : State) (a : Addr) (hk : ClaimListsKept s) :
    s.closeNow a
      = handed (closedNow s a) (s.cautionRequests ++ lateSources (denialsRecords s a (closingDenials s a))) := by
  unfold State.closeNow closedNow
  cases h : s.sectionAt a with
  | none =>
    have : denialsRecords s a (closingDenials s a) = [] := by
      unfold denialsRecords
      rw [h]
    rw [this]
    simp [lateSources, handed]
  | some sec =>
    by_cases hc : sec.admin = .closed
    · have : denialsRecords s a (closingDenials s a) = [] := by
        unfold denialsRecords closingDenials
        simp [h, hc]
      rw [this]
      simp [lateSources, handed, hc]
    · have hcd : closingDenials s a = requestsAt s .closed a := by
        unfold closingDenials
        simp [h, hc]
      simp only [if_neg hc, hcd]
      rw [denySection_eq s .closed a (fun x hx => hk.single hx)]
      have hb := afterDenials_busy s a .closed sec h hk
      have hs := denials_section s a (requestsAt s .closed a) sec h
      have hs' : (handed (denials s a (requestsAt s .closed a))
        (s.cautionRequests ++ lateSources (denialsRecords s a (requestsAt s .closed a)))).sectionAt a
          = some (afterDenials s sec (requestsAt s .closed a)) := hs
      unfold State.modifySection
      rw [hs']
      simp only [Option.map_some]
      unfold State.setSection handed
      rw [denials_some s a _ sec h]
      simp only [Vector.set_set, hb]

end Sys2Proof.Machine
end

