-- ==== Sys2Proof/Laws/Denials.lean ====
section
/-! SUPPORT. What a decision record and a denial can change, said once: `Denied s t` holds from before to after any
run of denials, and the operations that deny are shown to keep to it. -/

namespace Sys2Proof.Machine

/-- A section record after denials: its claims may have changed, and a CLOSING section may have become CLOSED. -/
def SectionDenied (sec sec' : Section) : Prop :=
  ∃ claims admin, sec' = { sec with claims := claims, admin := admin }
    ∧ (admin = sec.admin ∨ sec.admin = .closing ∧ admin = .closed)

theorem SectionDenied.refl (sec : Section) : SectionDenied sec sec := ⟨sec.claims, sec.admin, rfl, Or.inl rfl⟩

theorem SectionDenied.trans {a b c : Section} (h : SectionDenied a b) (g : SectionDenied b c) :
    SectionDenied a c := by
  obtain ⟨cl, ad, rfl, h2⟩ := h
  obtain ⟨cl', ad', rfl, g2⟩ := g
  refine ⟨cl', ad', rfl, ?_⟩
  simp only at g2
  grind

/-- An optional section record after denials. -/
def OptSectionDenied : Option Section → Option Section → Prop
  | none, none => True
  | some x, some y => SectionDenied x y
  | _, _ => False

theorem OptSectionDenied.refl (x : Option Section) : OptSectionDenied x x := by
  cases x <;> simp [OptSectionDenied, SectionDenied.refl]

theorem OptSectionDenied.trans {a b c : Option Section} (h : OptSectionDenied a b) (g : OptSectionDenied b c) :
    OptSectionDenied a c := by
  cases a <;> cases b <;> cases c <;> simp_all [OptSectionDenied]
  exact h.trans g

/-- A car record after denials: armed may have been cleared, under DROP alone. -/
def CarDenied (r r' : Car) : Prop :=
  r' = { r with armed := r'.armed } ∧ (r'.armed = true → r.armed = true)
    ∧ (r.retryMode = .keep → r'.armed = r.armed)

theorem CarDenied.refl (r : Car) : CarDenied r r := ⟨rfl, id, fun _ => rfl⟩

theorem CarDenied.trans {a b c : Car} (h : CarDenied a b) (g : CarDenied b c) : CarDenied a c := by
  obtain ⟨h1, h2, h3⟩ := h
  obtain ⟨g1, g2, g3⟩ := g
  rw [h1] at g1 g3
  exact ⟨g1, fun x => h2 (g2 x), fun x => by rw [g3 x, ← h3 x]⟩

/-- Everything a run of denials can change. -/
structure Denied (s t : State) : Prop where
  frame : t = { s with
    flags := t.flags, cars := t.cars, sections := t.sections, decisions := t.decisions
    decisionOverflows := t.decisionOverflows, cautionRequests := t.cautionRequests }
  flags : t.flags = { s.flags with overflow := t.flags.overflow }
  cars : ∀ k : Slot, CarDenied s.cars[k] t.cars[k]
  sections : ∀ a : Addr, OptSectionDenied s.sections[a] t.sections[a]
  decisions : s.decisions <+: t.decisions

theorem Denied.refl (s : State) : Denied s s :=
  ⟨rfl, rfl, fun _ => .refl _, fun _ => .refl _, List.prefix_refl _⟩

theorem Denied.trans {a b c : State} (h : Denied a b) (g : Denied b c) : Denied a c where
  frame := by rw [g.frame, h.frame]
  flags := by rw [g.flags, h.flags]
  cars k := (h.cars k).trans (g.cars k)
  sections x := (h.sections x).trans (g.sections x)
  decisions := h.decisions.trans g.decisions

theorem Denied.foldl {β : Type} (f : State → β → State) (h : ∀ s b, Denied s (f s b)) :
    ∀ (l : List β) (s : State), Denied s (l.foldl f s)
  | [], s => .refl s
  | b :: l, s => (h s b).trans (Denied.foldl f h l _)

/-- A decision record enters the queue or is dropped with the counter and OVERFLOW: nothing else changes. -/
theorem writeDecision_denied (s : State) (d : Decision) : Denied s (s.writeDecision d) := by
  unfold State.writeDecision
  split
  · exact ⟨rfl, rfl, fun _ => .refl _, fun _ => .refl _, List.prefix_append _ _⟩
  · exact ⟨rfl, rfl, fun _ => .refl _, fun _ => .refl _, List.prefix_refl _⟩

theorem writeRecord_denied (s : State) (a : Addr) (car : CarRef) (o : DecisionOutcome) (r : Option DenyReason)
    (x : Option CarRef) (m : Bool) : Denied s (s.writeRecord a car o r x m) :=
  writeDecision_denied s _

theorem requestCaution_denied (s : State) (c : CautionSource) : Denied s (s.requestCaution c) :=
  ⟨rfl, rfl, fun _ => .refl _, fun _ => .refl _, List.prefix_refl _⟩

theorem disarm_denied (s : State) (k : Slot) (h : s.cars[k].retryMode = .drop) : Denied s (s.disarm k) := by
  refine ⟨rfl, rfl, fun j => ?_, fun _ => .refl _, List.prefix_refl _⟩
  by_cases hj : j = k
  · subst hj
    have h' : s.cars[(j : Nat)].retryMode = .drop := h
    simp [State.disarm, State.modifyCar, State.setCar, State.car, CarDenied, h']
  · have : (s.disarm k).cars[j] = s.cars[j] := by
      simp [State.disarm, State.modifyCar, State.setCar, Fin.val_ne_of_ne (Ne.symm hj)]
    rw [this]
    exact .refl _

/-- The DENY record and the retry mode (R145, R146). -/
theorem recordDenial_denied (s : State) (a : Addr) (k : Slot) (r : DenyReason) (x : Option CarRef) :
    Denied s (s.recordDenial a k r x) := by
  unfold State.recordDenial
  have h := writeRecord_denied s a (.slot k) .deny (some r) x false
  simp only
  split
  · rename_i hd
    exact h.trans (disarm_denied _ _ hd)
  · exact h

theorem recordLateConflict_denied (s : State) (a : Addr) (c : CarRef) (g : Claim) :
    Denied s (s.recordLateConflict a c g) :=
  (writeRecord_denied s _ _ _ _ _ _).trans (requestCaution_denied _ _)

/-- The late-conflict test writes records and hands requests, and changes nothing else (R153). -/
theorem lateConflictTest_denied (s : State) (a : Addr) (c : Claim) : Denied s (s.lateConflictTest a c) := by
  unfold State.lateConflictTest
  split
  · exact .refl s
  · exact Denied.foldl _ (fun s g => recordLateConflict_denied s a c.car g) _ _

theorem setSection_denied (s : State) (a : Addr) (sec sec' : Section) (h : s.sections[a] = some sec)
    (hd : SectionDenied sec sec') : Denied s (s.setSection a (some sec')) := by
  refine ⟨rfl, rfl, fun _ => .refl _, fun b => ?_, List.prefix_refl _⟩
  by_cases hb : b = a
  · subst hb
    simp [h, OptSectionDenied, hd]
  · have : (s.setSection a (some sec')).sections[b] = s.sections[b] := by
      simp [Fin.val_ne_of_ne (Ne.symm hb)]
    rw [this]
    exact .refl _

theorem finishClose_denied (sec : Section) : SectionDenied sec sec.finishClose := by
  unfold Section.finishClose
  split
  · rename_i h
    exact ⟨sec.claims, .closed, rfl, Or.inr ⟨h.1, rfl⟩⟩
  · exact .refl sec

theorem modifySection_denied (s : State) (a : Addr) (f : Section → Section)
    (h : ∀ sec, SectionDenied sec (f sec)) : Denied s (s.modifySection a f) := by
  refine ⟨rfl, rfl, fun _ => .refl _, fun b => ?_, List.prefix_refl _⟩
  by_cases hb : b = a
  · subst hb
    simp only [State.modifySection, State.sectionAt, setSection_sections, Fin.getElem_fin,
      Vector.getElem_set_self]
    cases s.sections[(b : Nat)] <;> simp [OptSectionDenied, h]
  · have : (s.modifySection a f).sections[b] = s.sections[b] := by
      simp [State.modifySection, Fin.val_ne_of_ne (Ne.symm hb)]
    rw [this]
    exact .refl _

/-- A denial of a request whose claim stays (R145). -/
theorem deny_denied (s : State) (a : Addr) (k : Slot) (r : DenyReason) (x : Option CarRef) :
    Denied s (s.deny a k r x) := by
  unfold State.deny
  split
  · exact .refl s
  · rename_i sec hs
    split
    · exact .refl s
    · rename_i c hc
      exact (((setSection_denied s a sec _ hs ⟨_, _, rfl, Or.inl rfl⟩).trans (recordDenial_denied _ a k r x)).trans
        (lateConflictTest_denied _ _ _)).trans (modifySection_denied _ _ _ finishClose_denied)

theorem denySection_denied (s : State) (r : DenyReason) (a : Addr) : Denied s (s.denySection r a) := by
  unfold State.denySection
  split
  · exact .refl s
  · exact Denied.foldl _ (fun s k => deny_denied s a k r none) _ _

/-- The denials of a change of track state (R151); they leave no auto-caution request. -/
theorem denyForState_denied (s : State) :
    Denied s s.denyForState ∧ s.denyForState.cautionRequests = s.cautionRequests := by
  unfold State.denyForState
  split
  · exact ⟨.refl s, rfl⟩
  · have h := Denied.foldl (fun s a => s.denySection .state a) (fun s a => denySection_denied s .state a) allAddrs s
    generalize allAddrs.foldl (fun s a => s.denySection .state a) s = u at h
    refine ⟨⟨?_, h.flags, h.cars, h.sections, h.decisions⟩, rfl⟩
    have hf := h.frame
    generalize u.flags = x1, u.cars = x2, u.sections = x3, u.decisions = x4, u.decisionOverflows = x5,
      u.cautionRequests = x6 at hf
    subst hf
    rfl

/-! ### What a denial leaves of the claims -/

theorem writeDecision_sections (s : State) (d : Decision) : (s.writeDecision d).sections = s.sections := by
  unfold State.writeDecision
  split <;> rfl

theorem recordDenial_sections (s : State) (a : Addr) (k : Slot) (r : DenyReason) (x : Option CarRef) :
    (s.recordDenial a k r x).sections = s.sections := by
  unfold State.recordDenial
  simp only
  split
  · exact writeDecision_sections _ _
  · exact writeDecision_sections _ _

theorem lateConflictTest_sections (s : State) (a : Addr) (c : Claim) :
    (s.lateConflictTest a c).sections = s.sections := by
  unfold State.lateConflictTest
  split
  · rfl
  · rename_i sec _
    generalize (sec.claims.filter _) = l
    clear * -
    induction l generalizing s with
    | nil => rfl
    | cons g l ih =>
      rw [List.foldl_cons, ih]
      exact writeDecision_sections _ _

/-- A denial at section a changes that section's record alone, and there slot k's claim. -/
theorem deny_sections (s : State) (a : Addr) (k : Slot) (r : DenyReason) (x : Option CarRef) (sec : Section)
    (c : Claim) (h : s.sectionAt a = some sec) (hc : sec.claimOf k = some c) :
    (s.deny a k r x).sections
      = s.sections.set a (some (sec.putClaim k (s.deniedClaim sec c)).finishClose) := by
  rw [State.deny, h]
  simp only [hc]
  simp [State.modifySection, State.sectionAt, lateConflictTest_sections, recordDenial_sections]

theorem deny_of_no_claim (s : State) (a : Addr) (k : Slot) (r : DenyReason) (x : Option CarRef) (sec : Section)
    (h : s.sectionAt a = some sec) (hc : sec.claimOf k = none) : s.deny a k r x = s := by
  simp [State.deny, h, hc]

theorem deniedClaim_state (s : State) (sec : Section) (c : Claim) : (s.deniedClaim sec c).state = .entered := rfl

theorem finishClose_claims (sec : Section) : sec.finishClose.claims = sec.claims := by
  unfold Section.finishClose
  split <;> rfl

/-- Every PENDING claim of the section at address a belongs to one of the slots listed. -/
def PendingWithin (s : State) (a : Addr) (ks : List Slot) : Prop :=
  ∀ sec, s.sectionAt a = some sec → ∀ c ∈ sec.claims, c.state = .pending → ∃ k ∈ ks, c.car = .slot k

theorem deny_pendingWithin (s : State) (a : Addr) (k : Slot) (ks : List Slot) (r : DenyReason) (x : Option CarRef)
    (h : PendingWithin s a (k :: ks)) : PendingWithin (s.deny a k r x) a ks := by
  intro sec' hs' c hc hp
  cases hs : s.sectionAt a with
  | none =>
    have : s.deny a k r x = s := by simp [State.deny, hs]
    rw [this, hs] at hs'
    exact nomatch hs'
  | some sec =>
    cases hk : sec.claimOf k with
    | none =>
      rw [deny_of_no_claim s a k r x sec hs hk, hs] at hs'
      obtain rfl := Option.some.inj hs'
      obtain ⟨j, hj, hcar⟩ := h sec hs c hc hp
      rcases List.mem_cons.1 hj with rfl | hj
      · have := List.find?_eq_none.1 hk c hc
        simp [hcar] at this
      · exact ⟨j, hj, hcar⟩
    | some d =>
      have e := deny_sections s a k r x sec d hs hk
      simp only [State.sectionAt, e, Fin.getElem_fin, Vector.getElem_set_self, Option.some.injEq] at hs'
      subst hs'
      rw [finishClose_claims] at hc
      obtain ⟨c0, hc0, rfl⟩ := List.mem_map.1 hc
      split at hp
      · exact nomatch hp
      · rename_i hne
        obtain ⟨j, hj, hcar⟩ := h sec hs c0 hc0 hp
        rcases List.mem_cons.1 hj with rfl | hj
        · exact absurd hcar hne
        · exact ⟨j, hj, by rw [if_neg hne]; exact hcar⟩

theorem deny_sectionAt_ne (s : State) (a b : Addr) (k : Slot) (r : DenyReason) (x : Option CarRef) (h : b ≠ a) :
    (s.deny a k r x).sectionAt b = s.sectionAt b := by
  unfold State.deny
  split
  · rfl
  · split
    · rfl
    · simp [State.modifySection, State.sectionAt, lateConflictTest_sections, recordDenial_sections,
        Fin.val_ne_of_ne (Ne.symm h)]

/-- The denials of a section leave it without a PENDING request, where no ANON claim is PENDING. -/
theorem denySection_noPending (s : State) (r : DenyReason) (a : Addr)
    (h : ∀ sec, s.sectionAt a = some sec → ∀ c ∈ sec.claims, c.car = .anon → c.state ≠ .pending) :
    (∀ sec, (s.denySection r a).sectionAt a = some sec → ∀ c ∈ sec.claims, c.state ≠ .pending)
      ∧ ∀ b, b ≠ a → (s.denySection r a).sectionAt b = s.sectionAt b := by
  unfold State.denySection
  split
  · rename_i hn
    simp [hn]
  · rename_i sec hs
    have start : PendingWithin s a sec.pendingSlots := by
      intro sec' hs' c hc hp
      obtain rfl := Option.some.inj (hs.symm.trans hs')
      cases hcar : c.car with
      | anon => exact absurd hp (h sec hs c hc hcar)
      | slot k => exact ⟨k, List.mem_filterMap.2 ⟨c, hc, by simp [hp, hcar]⟩, rfl⟩
    generalize sec.pendingSlots = ks at start
    clear h hs
    induction ks generalizing s with
    | nil =>
      refine ⟨fun sec' hs' c hc hp => ?_, fun _ _ => rfl⟩
      obtain ⟨_, hm, _⟩ := start sec' hs' c hc hp
      exact nomatch hm
    | cons k ks ih =>
      obtain ⟨h1, h2⟩ := ih (s.deny a k r none) (deny_pendingWithin s a k ks r none start)
      exact ⟨h1, fun b hb => (h2 b hb).trans (deny_sectionAt_ne s a b k r none hb)⟩

/-- A change of track state or option after which no crossing may be granted leaves no PENDING request (R151). -/
theorem denyForState_noPending (s : State) (hx : s.crossingAllowed = false)
    (h : ∀ a sec, s.sectionAt a = some sec → ∀ c ∈ sec.claims, c.car = .anon → c.state ≠ .pending) :
    ∀ a sec, s.denyForState.sectionAt a = some sec → ∀ c ∈ sec.claims, c.state ≠ .pending := by
  suffices ∀ (l : List Addr) (s : State),
      (∀ a ∈ l, ∀ sec, s.sectionAt a = some sec → ∀ c ∈ sec.claims, c.car = .anon → c.state ≠ .pending) → l.Nodup →
      (∀ a ∈ l, ∀ sec, (l.foldl (fun s a => s.denySection .state a) s).sectionAt a = some sec →
        ∀ c ∈ sec.claims, c.state ≠ .pending)
      ∧ ∀ b, b ∉ l → (l.foldl (fun s a => s.denySection .state a) s).sectionAt b = s.sectionAt b by
    intro a sec hs c hc
    have hall : ∀ a : Addr, a ∈ allAddrs := by decide
    have := (this allAddrs s (fun a _ => h a) (by decide)).1 a (hall a)
    have e : s.denyForState.sections
        = (allAddrs.foldl (fun s a => s.denySection .state a) s).sections := by
      simp only [State.denyForState, hx, Bool.false_eq_true, if_false]
    refine this sec ?_ c hc
    rw [← hs]
    unfold State.sectionAt
    rw [e]
  intro l
  induction l with
  | nil => exact fun s _ _ => ⟨fun a ha => (List.not_mem_nil ha).elim, fun _ _ => rfl⟩
  | cons a l ih =>
    intro s h hn
    have hn' := List.nodup_cons.1 hn
    obtain ⟨d1, d2⟩ := denySection_noPending s .state a (h a List.mem_cons_self)
    obtain ⟨i1, i2⟩ := ih (s.denySection .state a)
      (fun b hb sec hs => h b (List.mem_cons_of_mem a hb) sec
        (by rw [← d2 b (by rintro rfl; exact hn'.1 hb)]; exact hs)) hn'.2
    refine ⟨fun b hb sec hs => ?_, fun b hb => ?_⟩
    · rcases List.mem_cons.1 hb with rfl | hb
      · rw [List.foldl_cons, i2 b hn'.1] at hs
        exact d1 sec hs
      · exact i1 b hb sec hs
    · rw [List.foldl_cons, i2 b (fun x => hb (List.mem_cons_of_mem a x))]
      exact d2 b (fun x => hb (x ▸ List.mem_cons_self))

end Sys2Proof.Machine
end

