-- ==== Sys2Proof/Laws/Layouts.lean ====
section
/-! SUPPORT. The bytes the commands answer with and the frames the part sends are the layouts that Safety.lean spells. -/

namespace Sys2Proof.Machine

theorem optional_eq_layout {α : Type} (w : Nat) (f : α → List Byte) (o : Option α) : optional w f o = Layout.opt w f o := by
  cases o <;> rfl

theorem carRefCode_eq_layout (c : CarRef) : carRefCode c = Layout.carOrAnon c := by cases c <;> rfl

theorem clearBytes_eq_layout (c : ClearTime) : clearBytes c = Layout.clear c := by cases c <;> rfl

theorem linkBytes_eq_layout (l : Option Link) : linkBytes l = Layout.linkInPlace l := by cases l <;> rfl

theorem linkOptional_eq_layout (l : Option Link) : linkOptional l = Layout.linkOptional l := optional_eq_layout _ _ _

theorem pairingModeBytes_eq_layout (m : PairingMode) : pairingModeBytes m = Layout.pairingMode m := by cases m <;> rfl

theorem wakeBytes_eq_layout (w : WakeCause) : wakeBytes w = Layout.lastWake w := by cases w <;> rfl

theorem Curve.bytes_eq_layout (v : Curve) : v.bytes = (List.finRange 9).map fun i => BitVec.ofNat 8 v[i] := by
  obtain ⟨a, h⟩ := v
  apply List.ext_getElem <;> simp [Curve.bytes, byte1, h]

theorem Options.bytes_eq_layout (o : Options) : o.bytes = Layout.options o := by
  rcases o with ⟨⟨⟩, b, ⟨⟩, c, d, e⟩ <;> rfl

theorem Car.bytes_eq_layout (r : Car) : r.bytes = Layout.car r := by
  have h : r.pendingWatch.isSome = decide (r.pendingWatch ≠ none) := by cases r.pendingWatch <;> rfl
  simp only [Car.bytes, Layout.car, optional_eq_layout, Curve.bytes_eq_layout, h, List.append_assoc, List.cons_append,
    List.nil_append]
  rfl

theorem Node.bytes_eq_layout (n : Node) : n.bytes = Layout.node n := by
  simp only [Node.bytes, Layout.node, optional_eq_layout]
  rfl

theorem SectionMap.bytes_eq_layout (f g : Option Link → List Byte) (h : ∀ l, f l = g l) (m : SectionMap) :
    m.bytes f = Layout.map g m := by
  simp only [SectionMap.bytes, Layout.map, h]
  rfl

theorem Claim.bytes_eq_layout (c : Claim) : c.bytes = Layout.claim c := by
  simp only [Claim.bytes, Layout.claim, optional_eq_layout, carRefCode_eq_layout, clearBytes_eq_layout]
  rfl

theorem State.upstreamSilent_eq_layout (s : State) (sec : Section) :
    s.upstreamSilent sec =
      ((sec.map.linkA.any fun link => decide ((s.node link.node).status ≠ .live))
        || sec.map.linkB.any fun link => decide ((s.node link.node).status ≠ .live)) := by
  unfold State.upstreamSilent
  cases sec.map.linkA <;> cases sec.map.linkB <;> simp

theorem State.sectionBytes_eq_layout (s : State) (sec : Section) : s.sectionBytes sec = Layout.sectionRecord s sec := by
  have h : Claim.bytes = Layout.claim := funext Claim.bytes_eq_layout
  simp only [State.sectionBytes, Layout.sectionRecord, optional_eq_layout, h, State.upstreamSilent_eq_layout,
    SectionMap.bytes_eq_layout _ _ linkOptional_eq_layout]
  rfl

theorem UnboundEntry.bytes_eq_layout (e : UnboundEntry) : e.bytes = Layout.unboundEntry e := rfl

theorem Pairing.bytes_eq_layout (p : Pairing) (r : PairingResult) : p.bytes ++ r.bytes = Layout.pairing p r := by
  have h : pairingModeBytes = Layout.pairingMode := funext pairingModeBytes_eq_layout
  simp only [Pairing.bytes, PairingResult.bytes, Layout.pairing, optional_eq_layout, h]
  rfl

theorem PairingParams.bytes_eq_layout (p : PairingParams) : p.bytes = Layout.pairingParams p := rfl

theorem Decision.bytes_eq_layout (d : Decision) : d.bytes = Layout.decision d := by
  have h : carRefCode = Layout.carOrAnon := funext carRefCode_eq_layout
  simp only [Decision.bytes, Layout.decision, optional_eq_layout, h]
  rfl

theorem State.statusBytes_eq_layout (s : State) : s.statusBytes = Layout.status s := by
  have h : wakeBytes = Layout.lastWake := funext wakeBytes_eq_layout
  simp only [State.statusBytes, Layout.status, optional_eq_layout, h, Rail.settings, List.append_assoc, List.cons_append,
    List.nil_append]
  rfl

theorem noticeBytes_eq_layout (n : Notice) : noticeBytes n = Layout.noticeFrame n := by
  rcases n with ⟨h, ⟨⟩⟩ <;> rfl

theorem throwBytes_eq_layout (t : Throw) : throwBytes t = Layout.throwFrame t := by
  rcases t with ⟨a, ⟨⟩, k, p, d, h⟩ <;> rfl

end Sys2Proof.Machine
end

