-- ==== Sys2Proof/Laws/Pairing.lean ====
section
/-! SUPPORT. What the ending of a pairing, a stop of the pad burst and a change of binding make of the state. -/

namespace Sys2Proof.Machine

/-- A stop leaves the burst IDLE, and changes the burst items alone (R89). -/
theorem stopBurst_eq (s : State) :
    s.stopBurst = { s with rail := if s.rail.burst = .active then s.rail.burstIdle else s.rail } := by
  unfold State.stopBurst
  cases h : s.rail.burst <;> rfl

theorem stopBurst_burst (s : State) : s.stopBurst.rail.burst = .idle := by
  rw [stopBurst_eq]
  by_cases h : s.rail.burst = .active
  · simp [h, Rail.burstIdle]
  · cases hb : s.rail.burst <;> simp_all

/-- A notice enters the queue or is dropped: the queue alone changes, and stays within 4 (R38). -/
theorem notify_eq (s : State) (h : Hid) (k : NoticeKind) :
    s.notify h k = { s with notices :=
      if s.notices.length < Config.noticeCapacity then s.notices ++ [{ hid := h, kind := k }] else s.notices } := by
  unfold State.notify
  split <;> rfl

/-- The result record an ending writes (R169). -/
def resultOf (p : Pairing) (o : PairingOutcome) : PairingResult where
  slot := p.slot
  hid := p.candidate
  outcome := o
  attempts := p.attempt
  ignored := p.ignored
  store := if o = PairingOutcome.bound then .pending else .none

/-- The notices after an ending: REFUSED to the candidate at TIMEOUT and ABORTED (R169). -/
def noticesAfter (s : State) (o : PairingOutcome) : List Notice :=
  match s.pairing.candidate with
  | some h =>
    if o.refusesCandidate ∧ s.notices.length < Config.noticeCapacity then
      s.notices ++ [{ hid := h, kind := .refused }]
    else s.notices
  | none => s.notices

/-- Everything an ending of a pairing changes (R169). -/
theorem endPairing_eq (s : State) (o : PairingOutcome) :
    s.endPairing o = { s with
      rail := if s.pairing.state = .programming then s.stopBurst.rail else s.rail
      notices := noticesAfter s o
      pairing := Pairing.idle
      result := resultOf s.pairing o
      flags := s.flags.raise .pairing } := by
  by_cases hp : s.pairing.state = .programming <;> cases hc : s.pairing.candidate <;>
    by_cases hr : o.refusesCandidate <;> by_cases hn : s.notices.length < Config.noticeCapacity <;>
    simp [State.endPairing, noticesAfter, resultOf, hp, hc, hr, hn, stopBurst_eq, notify_eq, State.raise]

/-- Everything a change of binding changes (R3). -/
theorem changeBinding_eq (s : State) (k : Slot) (b : Option Hid) :
    s.changeBinding k b = { s with
      cars := s.cars.set k (Car.recompute s.track (Car.rebind b (s.car k)))
      watch := s.watch.set k none
      unbound := leaveUnbound s.unbound b } := by
  simp [State.changeBinding, State.recompute, State.modifyCar, State.setCar, State.setWatch, State.car]

end Sys2Proof.Machine
end

