-- ==== Sys2Proof/Laws/PerInstr.lean ====
section
/-! SUPPORT. The family ConsoleFrame, one lemma for each command: the frame that spells a well-formed console
command is read as that command, whatever is clocked after it (R179, R198). -/

namespace Sys2Proof.Laws.ConsoleFrame

/-- The frame of command i, if it has one, is read as i, with any bytes after it. -/
def Statement (i : Instr) : Prop :=
  ∀ frame tail : List Byte, WellFormed i = true → consoleFrame i = some frame → decodeConsole (frame ++ tail) = i

/-- A code, its length byte and its arguments are read as the command the code names. -/
theorem spelled {code : Byte} {args : List Byte} {i : Instr} (hc : commandOfCode code args = some i)
    (hl : args.length ≤ 255) (tail : List Byte) :
    decodeConsole ((code :: BitVec.ofNat 8 args.length :: args) ++ tail) = i := by
  have hn : (BitVec.ofNat 8 args.length).toNat = args.length := by
    rw [BitVec.toNat_ofNat]; omega
  simp [decodeConsole, hn, hc]

/-- A command whose code names it obeys the statement. -/
theorem of_code {code : Byte} {args : List Byte} {i : Instr} (hp : consoleParts i = some (code, args))
    (hc : commandOfCode code args = some i) (hw : WellFormed i = true → args.length ≤ 255) : Statement i := by
  intro frame tail hi hf
  simp only [consoleFrame, hp, Option.map_some, Option.some.injEq] at hf
  subst hf
  exact spelled hc (hw hi) tail

/-- A command without a console frame obeys the statement. -/
theorem of_none {i : Instr} (hp : consoleParts i = none) : Statement i := by
  intro frame tail _ hf
  simp [consoleFrame, hp] at hf

theorem wake (args : List Byte) : Statement (.wake args) :=
  of_code rfl rfl of_decide_eq_true

theorem sleep (args : List Byte) : Statement (.sleep args) :=
  of_code rfl rfl of_decide_eq_true

theorem halt (args : List Byte) : Statement (.halt args) :=
  of_code rfl rfl of_decide_eq_true

theorem go (args : List Byte) : Statement (.go args) :=
  of_code rfl rfl of_decide_eq_true

theorem caution (args : List Byte) : Statement (.caution args) :=
  of_code rfl rfl of_decide_eq_true

theorem setOptions (args : List Byte) : Statement (.setOptions args) :=
  of_code rfl rfl of_decide_eq_true

theorem setRail (args : List Byte) : Statement (.setRail args) :=
  of_code rfl rfl of_decide_eq_true

theorem setCar (args : List Byte) : Statement (.setCar args) :=
  of_code rfl rfl of_decide_eq_true

theorem setCurve (args : List Byte) : Statement (.setCurve args) :=
  of_code rfl rfl of_decide_eq_true

theorem setWatch (args : List Byte) : Statement (.setWatch args) :=
  of_code rfl rfl of_decide_eq_true

theorem drive (args : List Byte) : Statement (.drive args) :=
  of_code rfl rfl of_decide_eq_true

theorem armLane (args : List Byte) : Statement (.armLane args) :=
  of_code rfl rfl of_decide_eq_true

theorem unbind (args : List Byte) : Statement (.unbind args) :=
  of_code rfl rfl of_decide_eq_true

theorem readCar (args : List Byte) : Statement (.readCar args) :=
  of_code rfl rfl of_decide_eq_true

theorem setNode (args : List Byte) : Statement (.setNode args) :=
  of_code rfl rfl of_decide_eq_true

theorem readNode (args : List Byte) : Statement (.readNode args) :=
  of_code rfl rfl of_decide_eq_true

theorem setSection (args : List Byte) : Statement (.setSection args) :=
  of_code rfl rfl of_decide_eq_true

theorem openSection (args : List Byte) : Statement (.openSection args) :=
  of_code rfl rfl of_decide_eq_true

theorem closeSection (args : List Byte) : Statement (.closeSection args) :=
  of_code rfl rfl of_decide_eq_true

theorem readSection (args : List Byte) : Statement (.readSection args) :=
  of_code rfl rfl of_decide_eq_true

theorem openPairing (args : List Byte) : Statement (.openPairing args) :=
  of_code rfl rfl of_decide_eq_true

theorem closePairing (args : List Byte) : Statement (.closePairing args) :=
  of_code rfl rfl of_decide_eq_true

theorem readPairing (args : List Byte) : Statement (.readPairing args) :=
  of_code rfl rfl of_decide_eq_true

theorem setPairing (args : List Byte) : Statement (.setPairing args) :=
  of_code rfl rfl of_decide_eq_true

theorem wipeBindings (args : List Byte) : Statement (.wipeBindings args) :=
  of_code rfl rfl of_decide_eq_true

theorem readUnbound (args : List Byte) : Statement (.readUnbound args) :=
  of_code rfl rfl of_decide_eq_true

theorem newRace (args : List Byte) : Statement (.newRace args) :=
  of_code rfl rfl of_decide_eq_true

theorem readDecision (args : List Byte) : Statement (.readDecision args) :=
  of_code rfl rfl of_decide_eq_true

theorem readStatus (args : List Byte) : Statement (.readStatus args) :=
  of_code rfl rfl of_decide_eq_true

theorem ackEvents (args : List Byte) : Statement (.ackEvents args) :=
  of_code rfl rfl of_decide_eq_true

theorem setEventEnable (args : List Byte) : Statement (.setEventEnable args) :=
  of_code rfl rfl of_decide_eq_true

theorem clearCounters (args : List Byte) : Statement (.clearCounters args) :=
  of_code rfl rfl of_decide_eq_true

theorem reset (args : List Byte) : Statement (.reset args) :=
  of_code rfl rfl of_decide_eq_true

theorem unknownCommand (code : Byte) (args : List Byte) : Statement (.unknownCommand code args) := by
  intro frame tail hi hf
  simp only [consoleFrame, consoleParts, Option.map_some, Option.some.injEq] at hf
  subst hf
  simp only [WellFormed, argsWellFormed, Bool.and_eq_true, decide_eq_true_eq, Option.isNone_iff_eq_none] at hi
  have hn : (BitVec.ofNat 8 args.length).toNat = args.length := by
    rw [BitVec.toNat_ofNat]; omega
  simp [decodeConsole, hn, hi.2]

theorem transactionDiscard (bytes : List Byte) : Statement (.transactionDiscard bytes) := of_none rfl

theorem softReset : Statement .softReset := of_none rfl

theorem powerOnReset : Statement .powerOnReset := of_none rfl

theorem rstPinReset : Statement .rstPinReset := of_none rfl

theorem resetRelease : Statement .resetRelease := of_none rfl

theorem storeLoadCompletion : Statement .storeLoadCompletion := of_none rfl

theorem handsetFrame (bytes : List Byte) : Statement (.handsetFrame bytes) := of_none rfl

theorem handsetContinuityTimeout : Statement .handsetContinuityTimeout := of_none rfl

theorem unboundAgeOut (hid : Hid) : Statement (.unboundAgeOut hid) := of_none rfl

theorem watchExpiry (slot : Slot) : Statement (.watchExpiry slot) := of_none rfl

theorem noticeCompletion : Statement .noticeCompletion := of_none rfl

theorem frameStart : Statement .frameStart := of_none rfl

theorem settleCompletion : Statement .settleCompletion := of_none rfl

theorem burstCompletion : Statement .burstCompletion := of_none rfl

theorem railfltAssertion : Statement .railfltAssertion := of_none rfl

theorem railfltDeassertion : Statement .railfltDeassertion := of_none rfl

theorem lfsrStep : Statement .lfsrStep := of_none rfl

theorem nodeFrame (bytes : List Byte) : Statement (.nodeFrame bytes) := of_none rfl

theorem silenceExpiry (addr : Addr) : Statement (.silenceExpiry addr) := of_none rfl

theorem throwTransmitStart : Statement .throwTransmitStart := of_none rfl

theorem throwCompletion : Statement .throwCompletion := of_none rfl

theorem claimLapse (addr : Addr) (place : Nat) : Statement (.claimLapse addr place) := of_none rfl

theorem overflowExpiry (addr : Addr) : Statement (.overflowExpiry addr) := of_none rfl

theorem decideTimeExpiry (addr : Addr) (slot : Slot) : Statement (.decideTimeExpiry addr slot) := of_none rfl

theorem pairingWindowExpiry : Statement .pairingWindowExpiry := of_none rfl

theorem verifyExpiry : Statement .verifyExpiry := of_none rfl

theorem confirmExpiry : Statement .confirmExpiry := of_none rfl

theorem storeWriteCompletion (success : Bool) : Statement (.storeWriteCompletion success) := of_none rfl

theorem handsetCharacter (char : Byte) (stop : Bool) : Statement (.handsetCharacter char stop) := of_none rfl

end Sys2Proof.Laws.ConsoleFrame
end

