-- ==== Sys2Proof/Laws/Store.lean ====
section
/-! SUPPORT. What the beginning of a store write makes of the state (R173, R175), in the words of Safety.lean, and that it
leaves no slot waiting where no write is in flight. -/

namespace Sys2Proof.Machine

theorem Store.lowestDirty_eq_some {st : Store} {j : Slot} : st.lowestDirty = some j ↔ LowestDirty st.dirty j := by
  unfold Store.lowestDirty LowestDirty allSlots
  fin_cases j <;> simp [Fin.forall_fin_succ] <;> tauto

theorem Store.lowestDirty_eq_none {st : Store} : st.lowestDirty = none ↔ ∀ k : Slot, st.dirty[k] = false := by
  simp [Store.lowestDirty, allSlots, Fin.forall_fin_succ]

/-- A write in flight holds every other back. -/
theorem beginWrite_of_inFlight {s : State} (h : s.store.inFlight ≠ none) : s.beginWrite = s := by
  unfold State.beginWrite
  split
  · contradiction
  · rfl

/-- With none in flight and no slot dirty nothing begins. -/
theorem beginWrite_of_clean {s : State} (h : ∀ k : Slot, s.store.dirty[k] = false) : s.beginWrite = s := by
  unfold State.beginWrite
  rw [Store.lowestDirty_eq_none.mpr h]
  split
  · contradiction
  · rfl

/-- With none in flight the lowest dirty slot's write begins with the binding its car record holds. -/
theorem beginWrite_of_lowest {s : State} {j : Slot} (h : s.store.inFlight = none) (hj : LowestDirty s.store.dirty j) :
    s.beginWrite = { s with store := { s.store with
      dirty := s.store.dirty.set j false, inFlight := some { slot := j, hid := (s.car j).binding } } } := by
  unfold State.beginWrite
  rw [h, Store.lowestDirty_eq_some.mpr hj]

/-- After it no slot waits unless a write is in flight (R175). -/
theorem beginWrite_leaves_none_waiting (s : State) (h : s.beginWrite.store.inFlight = none) (k : Slot) :
    s.beginWrite.store.dirty[k] = false := by
  cases hf : s.store.inFlight with
  | some w =>
    have hne : s.store.inFlight ≠ none := by rw [hf]; exact Option.some_ne_none w
    rw [beginWrite_of_inFlight hne, hf] at h
    exact nomatch h
  | none =>
    cases hl : s.store.lowestDirty with
    | none =>
      have hc := Store.lowestDirty_eq_none.mp hl
      rw [beginWrite_of_clean hc]
      exact hc k
    | some j =>
      rw [beginWrite_of_lowest hf (Store.lowestDirty_eq_some.mp hl)] at h
      exact nomatch h

/-- A request sets the slot's flag and its store status, and begins the lowest dirty slot's write where none is in flight
(R173). -/
theorem requestWrite_leaves_none_waiting (s : State) (k : Slot) (h : (s.requestWrite k).store.inFlight = none) (j : Slot) :
    (s.requestWrite k).store.dirty[j] = false :=
  beginWrite_leaves_none_waiting _ h j

/-- A completion begins the next write, so no slot waits behind none (R176). -/
theorem completeWrite_leaves_none_waiting (s : State) (w : StoreWrite) (ok : Bool)
    (h : (s.completeWrite w ok).store.inFlight = none) (j : Slot) : (s.completeWrite w ok).store.dirty[j] = false :=
  beginWrite_leaves_none_waiting _ h j

end Sys2Proof.Machine
end

