-- ==== Sys2Proof/Laws/Track.lean ====
section
/-! SUPPORT. What a change of track state brings, follower by follower and whole (R63); a section closed by NOW; the
auto-caution requests of an event. -/

namespace Sys2Proof.Machine

/-- Claim lists and the decision queue emptied at a STANDBY entry (R126). -/
def State.tornDown (d : State) : State :=
  { d with
    sections := Vector.ofFn fun a : Addr => d.sections[a].map (Section.standby d.pointerByMode)
    decisions := [] }

/-- The arbiter's part of a change: denials, and at STANDBY the teardown (R126, R151). -/
theorem arbiterFollows_eq (s : State) :
    s.arbiterFollows = if s.track = .standby then s.denyForState.tornDown else s.denyForState := by
  have h : s.denyForState.track = s.track := by rw [(denyForState_denied s).1.frame]
  unfold State.arbiterFollows
  generalize s.denyForState = u at h ⊢
  by_cases hs : s.track = .standby
  · rw [if_pos (h.trans hs), if_pos hs]
    rfl
  · rw [if_neg (fun x => hs (h.symm.trans x)), if_neg hs]

/-- A car after the Drive Unit's part of a change (R41, R53). -/
def carFollows (t : TrackState) (r : Car) : Car :=
  if t.stopped then (r.recompute t).forcedStop else r.recompute t

theorem carFollows_stopped (t : TrackState) (r : Car) (h : t.stopped = true) :
    carFollows t r = { r with target := 0, brakeRequest := true, output := 0 } := by
  cases t <;> simp_all [carFollows, TrackState.stopped, Car.recompute, Car.forcedStop, Car.targetFor]

/-- The state in which the arbiter takes its part of a change to `new`: drive and rails have followed. -/
def State.beforeDenials (s : State) (new : TrackState) : State :=
  { s with
    track := new
    cautionCause := causeAfterLeaving s.track s.cautionCause
    flags := s.flags.raise .state
    cars := Vector.ofFn fun k : Slot => carFollows new s.cars[k]
    rail :=
      let r := if s.track = .halt then s.stopBurst.rail else s.rail
      match new with
      | .settle => r.enterSettle s.now
      | .standby => r.enterStandby
      | _ => r }

theorem changeTrack_eq (s : State) (new : TrackState) :
    s.changeTrack new
      = (((s.beforeDenials new).arbiterFollows.positionsFollow).pairingFollows s.track).busFollows := by
  have : (({ s with track := new, cautionCause := causeAfterLeaving s.track s.cautionCause }).raise
      .state).driveFollows.railFollows s.track = s.beforeDenials new := by
    cases hs : s.track <;> cases new <;>
      simp [State.beforeDenials, State.railFollows, State.driveFollows, hs, State.raise, State.mapCars,
        stopBurst_eq, carFollows] <;> rfl
  simp only [State.changeTrack, this]

/-- A change to a state other than STANDBY: the drive, the rails, the denials and the pairing alone follow. -/
theorem changeTrack_other (s : State) (new : TrackState) (h : new ≠ .standby) :
    s.changeTrack new = (s.beforeDenials new).denyForState.pairingFollows s.track := by
  have ht : (s.beforeDenials new).track = new := rfl
  have hd : (s.beforeDenials new).denyForState.track = new := by
    rw [(denyForState_denied _).1.frame]
    exact ht
  have hp : ((s.beforeDenials new).denyForState.pairingFollows s.track).track = new := by
    unfold State.pairingFollows State.pairingLeavesHalt
    split_ifs
    · exact hd
    · rw [endPairing_eq]
      exact hd
    · exact hd
  rw [changeTrack_eq, arbiterFollows_eq, if_neg (by rw [ht]; exact h), State.positionsFollow,
    if_neg (by rw [hd]; exact h), State.busFollows, if_neg (by rw [hp]; exact h)]

/-- Where a crossing may still be granted, no request is denied (R151). -/
theorem denyForState_of_allowed (s : State) (h : s.crossingAllowed = true) : s.denyForState = s := by
  simp [State.denyForState, h]

/-! ### A change of track state, whole -/

/-- A state as a change of track state has its drive, rails, cause and STATE flag, its cars each followed by f. -/
def followed (f : Car → Car) (t : TrackState) (c : Option CautionCause) (r : Rail) (s : State) : State :=
  { s with
    track := t
    cautionCause := c
    flags := { s.flags with state := true }
    cars := Vector.ofFn fun k : Slot => f s.cars[k]
    rail := r }

/-- A car follower that a denial does not disturb. -/
structure Follows (f : Car → Car) : Prop where
  disarm : ∀ r : Car, f { r with armed := false } = { f r with armed := false }
  motion : ∀ r : Car, (f r).vtop = r.vtop ∧ (f r).accelMargin = r.accelMargin ∧ (f r).decelMargin = r.decelMargin
    ∧ (f r).carLength = r.carLength ∧ (f r).retryMode = r.retryMode

theorem carFollows_follows (t : TrackState) : Follows (carFollows t) where
  disarm r := by cases t <;> rfl
  motion r := by cases t <;> exact ⟨rfl, rfl, rfl, rfl, rfl⟩

theorem followed_sectionAt (f : Car → Car) (t : TrackState) (c : Option CautionCause) (r : Rail) (s : State) (a : Addr) :
    (followed f t c r s).sectionAt a = s.sectionAt a := rfl

theorem denials_followed (f : Car → Car) (hf : Follows f) (t : TrackState) (c : Option CautionCause) (r : Rail)
    (s : State) (a : Addr) (ds : List Denial) :
    denials (followed f t c r s) a ds = followed f t c r (denials s a ds) := by
  cases h : s.sectionAt a with
  | none => rw [denials_none _ a ds (show (followed f t c r s).sectionAt a = none from h), denials_none s a ds h]
  | some sec =>
    have hcar (k : Slot) : (followed f t c r s).car k = f (s.car k) := by
      unfold followed State.car
      simp
    have href (k : Slot) (x : Claim) : refusedClaim (followed f t c r s) sec.map k x = refusedClaim s sec.map k x := by
      obtain ⟨h1, h2, h3, h4, -⟩ := hf.motion (s.car k)
      unfold refusedClaim windowOf levelOf
      rw [hcar, h1, h2, h3, h4]
      rfl
    have hafter : afterDenials (followed f t c r s) sec ds = afterDenials s sec ds := by
      have : claimAfter (followed f t c r s) sec.map ds = claimAfter s sec.map ds := by
        funext x
        unfold claimAfter
        simp only [href]
      unfold afterDenials
      rw [this]
    have hrec : denialsRecords (followed f t c r s) a ds = denialsRecords s a ds := by
      unfold denialsRecords denialRecords
      rw [followed_sectionAt, h]
      simp only [href]
      rfl
    have hdis (g : Slot → Bool) : disarmed (followed f t c r s) g = Vector.ofFn fun k : Slot => f (disarmed s g)[k] := by
      apply Vector.ext
      intro i hi
      have e := disarmed_get s g ⟨i, hi⟩
      have e' := disarmed_get (followed f t c r s) g ⟨i, hi⟩
      simp only [Fin.getElem_fin] at e e'
      have hr := (hf.motion (s.car ⟨i, hi⟩)).2.2.2.2
      rw [e', hcar]
      simp only [Vector.getElem_ofFn, Fin.getElem_fin]
      rw [e]
      by_cases hc : g ⟨i, hi⟩ = true ∧ (s.car ⟨i, hi⟩).retryMode = .drop
      · rw [if_pos hc, if_pos ⟨hc.1, hr.trans hc.2⟩]
        exact (hf.disarm (s.car ⟨i, hi⟩)).symm
      · rw [if_neg hc, if_neg fun x => hc ⟨x.1, hr.symm.trans x.2⟩]
    have hq : ∀ (ds : List Decision) (q : List Decision × Nat × LatchedFlags),
        ds.foldl queueAfter (q.1, q.2.1, { q.2.2 with state := true })
          = ((ds.foldl queueAfter q).1, (ds.foldl queueAfter q).2.1, { (ds.foldl queueAfter q).2.2 with state := true }) := by
      intro ds
      induction ds with
      | nil => exact fun _ => rfl
      | cons d ds ih =>
        intro q
        rw [List.foldl_cons, List.foldl_cons, ← ih]
        congr 1
        unfold queueAfter
        split <;> rfl
    have hqueue : queued (followed f t c r s) (denialsRecords s a ds)
        = ((queued s (denialsRecords s a ds)).1, (queued s (denialsRecords s a ds)).2.1,
            { (queued s (denialsRecords s a ds)).2.2 with state := true }) :=
      hq (denialsRecords s a ds) (s.decisions, s.decisionOverflows, s.flags)
    rw [denials_some _ a ds sec (show (followed f t c r s).sectionAt a = some sec from h), denials_some s a ds sec h, hrec,
      hafter, hdis, hqueue]
    rfl

theorem requestsDenied_followed (f : Car → Car) (hf : Follows f) (t : TrackState) (c : Option CautionCause) (r : Rail)
    (s : State) : requestsDenied (followed f t c r s) = followed f t c r (requestsDenied s) := by
  unfold requestsDenied
  generalize allAddrs = l
  induction l generalizing s with
  | nil => rfl
  | cons a l ih =>
    rw [List.foldl_cons, List.foldl_cons, denials_followed f hf]
    exact ih _

/-- What denials can change: a section's claims and a close completed, cars, flags and the decision queue. -/
theorem denials_other_fields (s : State) (a : Addr) (ds : List Denial) :
    ∃ ca se fl de ov, denials s a ds = { s with
        cars := ca, sections := se, flags := { s.flags with overflow := fl }, decisions := de, decisionOverflows := ov }
      ∧ ∀ b : Addr, OptSectionDenied s.sections[b] se[b] := by
  cases h : s.sectionAt a with
  | none =>
    exact ⟨s.cars, s.sections, s.flags.overflow, s.decisions, s.decisionOverflows, denials_none s a ds h, fun _ => .refl _⟩
  | some sec =>
    have hq : ∀ (l : List Decision) (q : List Decision × Nat × LatchedFlags), ∃ fl,
        (l.foldl queueAfter q).2.2 = { q.2.2 with overflow := fl } := by
      intro l
      induction l with
      | nil => exact fun q => ⟨q.2.2.overflow, rfl⟩
      | cons d l ih =>
        intro q
        obtain ⟨fl, hfl⟩ := ih (queueAfter q d)
        refine ⟨fl, hfl.trans ?_⟩
        unfold queueAfter
        split <;> rfl
    obtain ⟨fl, hfl⟩ := hq (denialsRecords s a ds) (s.decisions, s.decisionOverflows, s.flags)
    refine ⟨disarmed s fun k => ds.any fun d => decide (d.slot = k), s.sections.set a (some (afterDenials s sec ds)), fl,
      (queued s (denialsRecords s a ds)).1, (queued s (denialsRecords s a ds)).2.1, ?_, fun b => ?_⟩
    · rw [denials_some s a ds sec h]
      unfold withQueue
      rw [show (queued s (denialsRecords s a ds)).2.2 = _ from hfl]
    · by_cases hb : b = a
      · subst hb
        have hs : s.sections[b] = some sec := h
        rw [hs]
        simp only [Fin.getElem_fin, Vector.getElem_set_self]
        refine ⟨_, _, afterDenials_eq s sec ds, ?_⟩
        split_ifs with hc
        · exact .inr ⟨hc.1, rfl⟩
        · exact .inl rfl
      · simp only [Fin.getElem_fin, Vector.getElem_set_ne _ _ (fun x => hb (Fin.ext x.symm))]
        exact .refl _

theorem requestsDenied_other_fields (s : State) :
    ∃ ca se fl de ov, requestsDenied s = { s with
        cars := ca, sections := se, flags := { s.flags with overflow := fl }, decisions := de, decisionOverflows := ov }
      ∧ ∀ b : Addr, OptSectionDenied s.sections[b] se[b] := by
  unfold requestsDenied
  generalize allAddrs = l
  induction l generalizing s with
  | nil => exact ⟨s.cars, s.sections, s.flags.overflow, s.decisions, s.decisionOverflows, rfl, fun _ => .refl _⟩
  | cons a l ih =>
    obtain ⟨c1, s1, f1, d1, o1, h1, g1⟩ := denials_other_fields s a (requestsAt s .state a)
    obtain ⟨c2, s2, f2, d2, o2, h2, g2⟩ := ih (denials s a (requestsAt s .state a))
    refine ⟨c2, s2, f2, d2, o2, ?_, fun b => (g1 b).trans ?_⟩
    · rw [List.foldl_cons, h2, h1]
    · have := g2 b
      rwa [h1] at this

theorem beforeDenials_eq (s : State) (new : TrackState) :
    s.beforeDenials new = followed (carFollows new) new (causeAfterLeaving s.track s.cautionCause)
      (s.beforeDenials new).rail s := rfl

/-- A change to HALT or CAUTION from RUN or CAUTION: the requests denied where no crossing may be granted, the drive
following (R63, R67, R68, R151). -/
theorem changeTrack_denying (s : State) (new : TrackState) (hk : ClaimListsKept s) (h : new = .halt ∨ new = .caution)
    (hs : s.track ≠ .halt) :
    s.changeTrack new = followed (carFollows new) new (causeAfterLeaving s.track s.cautionCause) s.rail
      (if new = .caution ∧ s.options.cautionLanes = .allow then s else requestsDenied s) := by
  have hr : (s.beforeDenials new).rail = s.rail := by
    unfold State.beforeDenials
    rw [if_neg hs]
    rcases h with rfl | rfl <;> rfl
  have hk' : ClaimListsKept (s.beforeDenials new) := hk
  rw [changeTrack_other s new (by rcases h with rfl | rfl <;> decide), denyForState_eq _ hk', beforeDenials_eq, hr,
    requestsDenied_followed _ (carFollows_follows new), State.pairingFollows, if_neg hs]
  unfold State.crossingAllowed
  rcases h with rfl | rfl
  · simp [followed]
  · by_cases ho : s.options.cautionLanes = .allow <;> simp [followed, ho]

/-- The entry to CAUTION from RUN (R68, R72). -/
theorem enterCaution_eq (s : State) (cause : CautionCause) (hk : ClaimListsKept s) (hs : s.track = .run) :
    s.enterCaution cause = cautioned s cause := by
  unfold State.enterCaution cautioned
  rw [changeTrack_denying s .caution hk (.inr rfl) (by rw [hs]; decide)]
  obtain ⟨ca, se, fl, de, ov, he, -⟩ := requestsDenied_other_fields s
  by_cases ho : s.options.cautionLanes = .allow
  · simp only [ho, and_self, if_true]
    rfl
  · simp only [ho, and_false, if_false, he]
    rfl

/-- The auto-caution requests of an event, taken at its end (R72). -/
theorem takeCautionRequests_eq (s : State) (hk : ClaimListsKept s) :
    s.takeCautionRequests = handed (cautionAfter s s.cautionRequests) [] := by
  have outside (l : List CautionSource) (u : State) (h : u.track ≠ .run) : l.foldl State.takeCaution u = u := by
    induction l with
    | nil => rfl
    | cons c l ih => rw [List.foldl_cons, takeCaution_ignored u c (.inl h), ih]
  have key (l : List CautionSource) : l.foldl State.takeCaution s = cautionAfter s l := by
    by_cases hs : s.track = .run
    · induction l with
      | nil => rfl
      | cons c l ih =>
        unfold cautionAfter
        rw [List.foldl_cons]
        cases hc : s.options.enables c with
        | false =>
          rw [takeCaution_ignored s c (.inr hc), ih, List.find?_cons, hc]
          rfl
        | true =>
          have : s.takeCaution c = cautioned s c.cause := by
            unfold State.takeCaution
            rw [if_pos ⟨hs, hc⟩, enterCaution_eq s c.cause hk hs]
          rw [this, outside l (cautioned s c.cause) (by simp [cautioned]), List.find?_cons, hc]
          simp [hs]
    · rw [outside l s hs]
      unfold cautionAfter
      split
      · rw [if_neg hs]
      · rfl
  show handed (s.cautionRequests.foldl State.takeCaution s) [] = _
  rw [key]

/-- An ending without a binding, whole (R169). -/
theorem endPairing_ended (s : State) (o : PairingOutcome) (h : o ≠ .bound) : s.endPairing o = pairingEnded s o := by
  rw [endPairing_eq]
  unfold pairingEnded noticesAfter resultOf
  cases o <;> first
    | exact absurd rfl h
    | (cases s.pairing.candidate <;> simp [PairingOutcome.refusesCandidate, Config.noticeCapacity] <;> rfl)

theorem stopBurst_idle (s : State) (h : s.rail.burst = .idle) : s.stopBurst.rail = s.rail := by
  rw [stopBurst_eq, h]
  rfl

/-- The entry to STANDBY, whole (R63, R126). -/
theorem changeTrack_standby (s : State) (hk : ClaimListsKept s) : s.changeTrack .standby = enteredStandby s := by
  have harb : (s.beforeDenials .standby).arbiterFollows = (s.beforeDenials .standby).denyForState.tornDown := by
    rw [arbiterFollows_eq]
    exact if_pos rfl
  have hk' : ClaimListsKept (s.beforeDenials .standby) := hk
  have hd : (s.beforeDenials .standby).denyForState = requestsDenied (s.beforeDenials .standby) := by
    rw [denyForState_eq _ hk']
    exact if_neg Bool.false_ne_true
  obtain ⟨ca, se, fl, de, ov, he, hse⟩ := requestsDenied_other_fields s
  have hcar : (Vector.ofFn fun k : Slot => carFollows .standby ca[k])
      = Vector.ofFn fun k : Slot => { ca[k] with target := 0, brakeRequest := true, output := 0 } := by
    exact congrArg Vector.ofFn (funext fun k => carFollows_stopped _ _ rfl)
  have hsec : (Vector.ofFn fun a : Addr => se[a].map (Section.standby s.pointerByMode))
      = Vector.ofFn fun a : Addr => (s.sectionAt a).map fun sec =>
      { sec with
        admin := if sec.admin = .opened then .opened else .closed
        overflow := false, lastOverflow := none, pointer := s.pointerByMode, claims := [] } := by
    refine congrArg Vector.ofFn (funext fun a => ?_)
    have := hse a
    unfold State.sectionAt
    revert this
    generalize s.sections[a] = x
    generalize se[a] = y
    intro this
    cases x <;> cases y <;> simp only [OptSectionDenied, Option.map_none, Option.map_some] at this ⊢
    obtain ⟨cl, ad, rfl, hh⟩ := this
    rename_i sec
    simp only [Section.standby, Option.some.injEq, Section.mk.injEq, true_and, and_true]
    rcases hh with rfl | ⟨h1, rfl⟩
    · cases sec.admin <;> simp
    · simp [h1]
  have hnode : (Vector.ofFn fun a : Addr => s.nodes[a].standby) = Vector.ofFn fun a : Addr =>
      if (s.node a).role = .none then s.node a else { s.node a with status := .unheard, declared := none } := by
    refine congrArg Vector.ofFn (funext fun a => ?_)
    unfold Node.standby State.node
    generalize s.nodes[a] = n
    cases n with
    | mk role _ _ _ _ => cases role <;> rfl
  rw [changeTrack_eq, harb, hd, beforeDenials_eq, requestsDenied_followed _ (carFollows_follows .standby)]
  unfold enteredStandby
  rw [← hsec, ← hnode]
  simp only [he]
  rw [← hcar]
  by_cases hh : s.track = .halt
  · have hr : (s.beforeDenials .standby).rail = s.stopBurst.rail.enterStandby := by
      unfold State.beforeDenials
      rw [if_pos hh]
    have hc : causeAfterLeaving s.track s.cautionCause = if s.track = .caution then none else s.cautionCause := by
      cases s.track <;> rfl
    have hb : s.stopBurst.rail.enterStandby.burst = .idle := stopBurst_burst s
    rw [State.pairingFollows, if_pos hh, hr, if_pos hh, if_pos hh, hc]
    generalize hX : State.positionsFollow _ = X
    have hXp : X.pairing = s.pairing := by rw [← hX]; rfl
    have hXb : X.rail.burst = .idle := by rw [← hX]; exact hb
    unfold State.pairingLeavesHalt pairingAborted
    rw [hXp]
    by_cases hp : s.pairing.state = .idle
    · rw [if_pos hp, if_pos hp, ← hX]
      rfl
    · rw [if_neg hp, if_neg hp, endPairing_ended _ _ (by decide)]
      unfold pairingEnded
      rw [stopBurst_idle _ hXb, ite_self, ← hX]
      rfl
  · have hr : (s.beforeDenials .standby).rail = s.rail.enterStandby := by
      unfold State.beforeDenials
      rw [if_neg hh]
    have hc : causeAfterLeaving s.track s.cautionCause = if s.track = .caution then none else s.cautionCause := by
      cases s.track <;> rfl
    rw [State.pairingFollows, if_neg hh, hr, if_neg hh, if_neg hh, hc]
    rfl

end Sys2Proof.Machine
end

