-- ==== Sys2Proof/Tests/Slice0.lean ====
section
/-! SUPPORT. Tests of the model: ill-formed commands that the check refuses, figures that the spec works out, and for
each statement with hypotheses a state and operands that meet them, at the ends of their ranges. -/

namespace Sys2Proof.Tests.Slice0

open Sys2Proof Sys2Proof.Machine Host

/-! ### Small states -/

/-- A served part at track time 100,000 with nothing configured, its rails as the track state has them. -/
def calm (t : TrackState) : State :=
  { State.reset with
    served := true
    now := 100000
    track := t
    rail := { Rail.por with
      power := decide (t ≠ .standby), nextStart := if t = .standby then none else some 100000 }
    store := { Store.fresh with load := .ready } }

/-- Slot 1 bound to handset 5, LIVE, its watch timer due. -/
def paired (t : TrackState) : State :=
  { calm t with
    cars := (calm t).cars.set 0 { Car.por with
      binding := some 5, link := .live, lastSeq := some 3, output := 150, target := 150 }
    watch := (calm t).watch.set 0 (some 100000) }

/-- A LIVE node of a role at address 1, with its section record where it has one. -/
def noded (s : State) (role : Role) (claims : List Claim) : State :=
  { s with
    nodes := s.nodes.set 0 { role := role, declared := none, status := .live, lastHeard := some 97000, fault := none }
    sections := s.sections.set 0 (if role = .sect then some { Section.created 0 with claims := claims } else none) }

/-- A PENDING request of slot k from lane A, its decide time and lapse time reached. -/
def request (k : Slot) : Claim :=
  { car := .slot k, kind := .crossAB, origin := .sensed, state := .pending, sense := 99900, enter := 100020
    clear := .bounded 100700, decideTime := some 99990, exitLane := .a, lapse := some 100000 }

/-- A request of slot k from lane B, in conflict with `request`. -/
def rival (k : Slot) : Claim := { request k with kind := .crossBA, exitLane := .b }

/-- A claim of slot k on lane A, ENTERED. -/
def passing (k : Slot) : Claim := { request k with kind := .straightA, state := .entered, decideTime := none }

/-- A pairing in a state, of slot 2, its expiries due. -/
def pairingIn (p : PairingState) (s : State) : State :=
  { s with pairing :=
    { state := p, mode := some .auto, slot := some 1, attempt := 1, candidate := none, ignored := 0
      windowExpiry := some 100000, verifyExpiry := some 100000, confirmExpiry := some 100000 } }

/-- A handset frame of handset 5. -/
def frame : HandsetFrame :=
  { hid := 5, seq := 4, lane := true, brake := false, bind := false, wake := false, thr := 149, batt := 1 }

/-! ### Small lemmas about them -/

theorem served_calm (t : TrackState) : Served (calm t) := ⟨rfl, rfl⟩

/-- The record of a state whose one section stands at address 1. -/
theorem only_section {s : State} {sec : Section} (h : s.sections = (Vector.replicate 15 none).set 0 (some sec)) {a : Addr}
    {x : Section} (hx : s.sectionAt a = some x) : a = 0 ∧ x = sec := by
  unfold State.sectionAt at hx
  rw [h] at hx
  revert hx
  by_cases ha : a = 0
  · subst ha
    intro hx
    exact ⟨rfl, (Option.some.inj hx).symm⟩
  · intro hx
    have hne : (0 : Nat) ≠ a.val := fun h0 => ha (Fin.ext h0.symm)
    simp [hne] at hx

theorem no_section {s : State} (h : s.sections = Vector.replicate 15 none) (a : Addr) : s.sectionAt a = none := by
  unfold State.sectionAt
  rw [h]
  simp

theorem quiet_of_track {s : State} (h : s.track ≠ .standby) : StandbyQuiet s := fun hs => absurd hs h

theorem lists_of_none {s : State} (h : s.sections = Vector.replicate 15 none) : ClaimListsKept s := by
  intro a sec ha
  rw [no_section h a] at ha
  exact absurd ha (by simp)

/-- A claim fits its state, as a check. -/
def fits (c : Claim) : Bool :=
  decide ((c.car = .anon → c.state = .entered)
    ∧ (c.state = .predicted ∨ c.state = .entered → c.kind = .straightA ∨ c.kind = .straightB)
    ∧ (c.state = .pending ∨ c.state = .granted → c.kind = .crossAB ∨ c.kind = .crossBA)
    ∧ (c.decideTime.isSome = true ↔ c.state = .pending) ∧ (c.clear = .unbounded → c.lapse = none)
    ∧ c.exitLane = (if c.state = .granted then c.kind.entryLane.other else c.kind.entryLane))

theorem fits_of_check {c : Claim} (h : fits c = true) : ClaimFits c := by
  obtain ⟨h1, h2, h3, h4, h5, h6⟩ := of_decide_eq_true h
  exact ⟨h1, h2, h3, h4, h5, h6⟩

theorem lists_of_one {s : State} {sec : Section} (h : s.sections = (Vector.replicate 15 none).set 0 (some sec))
    (hl : decide (sec.claims.length ≤ 6) = true)
    (hk : decide (∀ k : Slot, (sec.claims.filter fun c => decide (c.car = .slot k)).length ≤ 1) = true)
    (hf : sec.claims.all fits = true) : ClaimListsKept s := by
  intro a x hx
  obtain ⟨-, rfl⟩ := only_section h hx
  exact ⟨of_decide_eq_true hl, of_decide_eq_true hk, fun c hc => fits_of_check (List.all_eq_true.mp hf c hc)⟩

/-- A part in RUN with handset 5 bound to slot 1 and a request of slot 1 at section 1. -/
def racing : State := noded (paired .run) .sect [request 0, passing 1]

theorem lists_racing : ClaimListsKept racing := lists_of_one rfl (by decide) (by decide) (by decide)

theorem identities_of_one {s : State} {h : Hid} (hb : ∀ k : Slot, (s.car k).binding = if k = 0 then some h else none)
    (hp : s.pairing.candidate = none) (hu : s.unbound = []) (hl : s.store.load = .ready) : IdentitiesDistinct s where
  bindings := by
    intro j k h' hj hk
    rw [hb] at hj hk
    by_cases h0 : j = 0 <;> by_cases h1 : k = 0 <;> simp_all
  candidate := by simp [hp]
  list := by simp [hu]
  unbound := by simp [hu]
  loading := by simp [hl]

theorem identities_paired (t : TrackState) : IdentitiesDistinct (paired t) := by
  refine identities_of_one (h := 5) ?_ rfl rfl rfl
  intro k
  fin_cases k <;> rfl

theorem registry_racing : RegistryKept { racing with pending := [.frameStart] } :=
  ⟨by decide, by decide, by decide, by decide⟩


/-! ### Ill-formed commands -/

theorem test_illformed_long_arguments : WellFormed (.wake (List.replicate 256 0)) = false := by decide +kernel
theorem test_illformed_known_code : WellFormed (.unknownCommand 0x10 []) = false := by decide
theorem test_illformed_complete_discard : WellFormed (.transactionDiscard [0x23, 1, 5]) = false := by decide
theorem test_illformed_handset_length : WellFormed (.handsetFrame [0xA5, 7]) = false := by decide
theorem test_illformed_handset_start :
    WellFormed (.handsetFrame [0xA4, 7, 0, 0, 0, 5, 0, 0, 0, 0]) = false := by decide
theorem test_wellformed_drive : WellFormed (.drive [1, 0, 200]) = true := by decide

/-! ### Figures the spec works out -/

/-- 3.8 and 3.9: the throttle 125 on the race and the caution curve. -/
theorem test_throttle_to_level :
    normalise 20 230 125 = 127 ∧ curveLevel defaultRaceCurve 127 = 127 ∧ curveLevel defaultCautionCurve 127 = 47 := by
  decide

/-- 3.11: a falling curve segment, truncated toward zero. -/
theorem test_falling_segment :
    [128, 150, 176, 170, 255].map (curveLevel #v[0, 40, 80, 120, 160, 160, 100, 100, 100]) = [160, 160, 130, 142, 100] := by
  decide

/-- A car at output level 160 and a request of 8.6, sensed at 10,000. -/
def crossing : State :=
  (noded (calm .run) .sect []).setPosition 3 { Position.absent with level := some 160 }

/-- 8.6: the window of a crossing and of the straight lane, the release offset and the hold. -/
theorem test_window_of_crossing :
    windowOf Car.por 160 10000 250 600 = (10102, .bounded 10752) ∧ windowOf Car.por 160 10000 250 500 = (10102, .bounded 10676)
      ∧ (crossing.motion (Section.created 0) (.slot 3)).releaseTime SectionMap.initial 10000 = .bounded 10296
      ∧ flipperHold SectionMap.initial (.bounded 10296) 10072 = (204, false) := by
  decide

/-- 8.7: a slow car is UNBOUNDED, and the coil limit caps a hold. -/
theorem test_slow_car_and_coil_limit :
    (windowOf Car.por 40 30000 250 600).2 = .unbounded ∧ windowOf Car.por 70 30000 250 600 = (30180, .bounded 33825)
      ∧ flipperHold SectionMap.initial (.bounded 31507) 30150 = (980, true) := by
  decide

/-- 8.6: overlap is strict at one guard. -/
theorem test_overlap_is_strict :
    let a : Claim := { request 0 with enter := 10102, clear := .bounded 10752 }
    let b (e : TrackTime) : Claim := { passing 1 with kind := .straightB, enter := e, clear := .bounded 11300 }
    conflicts 40 a (b 10760) = true ∧ conflicts 40 a (b 10800) = false ∧ conflicts 40 a (b 10792) = false := by
  decide

/-- A frame written out from Table 12-1: handset 5, SEQ 4, LANE pressed, THR 149, BATT 1. -/
theorem test_handset_frame_layout : (handsetBytes frame).take 9 = [0xA5, 0x07, 0, 0, 0, 5, 0x14, 149, 1] := by decide

/-- The SENSE report of Table 12-3's figure: section 3, car 4, entry sensor, lane A, age 4. -/
theorem test_sense_frame_layout :
    (nodeFrameBytes 2 (.sense .entry .a (some 3) 4)).take 6 = [0x03, 0x00, 0x02, 0x00, 0x04, 0x04] := by decide

/-- A command frame written out: DRIVE of slot 1, a level, 200. -/
theorem test_drive_frame : decodeConsole [0x23, 3, 1, 0, 200, 0xFF] = .drive [1, 0, 200] := by decide

/-! ### States that meet the hypotheses -/

theorem test_held : (State.por [] true false Store.fresh).held = true := rfl

theorem test_unserved : consoleParts (.wake []) = some (0x10, []) ∧ State.reset.held = false ∧ State.reset.served = false :=
  ⟨rfl, rfl, rfl⟩

/-- A slot 0 and 9, an address 0 and 16, a mode 2, a role 4, marks past the last: each refused. -/
theorem test_structural_errors :
    let s := calm .halt
    let refused : Outcome State Fault Refusal := .next { s with response := some { status := .badArg, data := [] } }
    Served s ∧ argLength (.drive [1, 0]) = some 3
      ∧ exec (.drive [1, 0]) s = refused ∧ exec (.readCar [0]) s = refused ∧ exec (.readCar [9]) s = refused
      ∧ exec (.readNode [0]) s = refused ∧ exec (.readNode [16]) s = refused ∧ exec (.openPairing [9]) s = refused
      ∧ exec (.closeSection [1, 2]) s = refused ∧ exec (.setNode [1, 4]) s = refused
      ∧ exec (.setOptions [64, 0, 0, 0, 0, 0, 0]) s = refused ∧ exec (.setRail [4, 0, 0]) s = refused
      ∧ exec (.setPairing [32, 0, 0, 0, 0, 0, 0, 0, 0]) s = refused :=
  ⟨served_calm _, rfl, rfl, rfl, rfl, rfl, rfl, rfl, rfl, rfl, rfl, rfl, rfl⟩

/-- The first value past each code: a curve set, a RELEASE mark, marks above 12, an option value, a lane and a retry mode,
link addresses; the values before them at the other ends of their clauses. -/
theorem test_structural_codes :
    let s := calm .halt
    let refused : Outcome State Fault Refusal := .next { s with response := some { status := .badArg, data := [] } }
    let z (n : Nat) : List Byte := List.replicate n 0
    exec (.setCurve (1 :: 2 :: z 9)) s = refused ∧ exec (.drive [1, 2, 0]) s = refused
      ∧ exec (.setCar (1 :: 16 :: z 14)) s = refused ∧ exec (.setSection (1 :: 16 :: z 22)) s = refused
      ∧ exec (.setOptions [32, 0, 0, 0, 0, 0, 2]) s = refused
      ∧ exec (.setCar ([1, 0, 0x40] ++ z 6 ++ [2] ++ z 6)) s = refused
      ∧ exec (.setCar ([1, 0, 0x80] ++ z 7 ++ [2] ++ z 5)) s = refused
      ∧ exec (.setSection ([1, 0, 0x08] ++ z 6 ++ [16] ++ z 14)) s = refused
      ∧ exec (.setSection ([1, 0, 0x10] ++ z 9 ++ [16] ++ z 11)) s = refused
      ∧ (∃ x ∈ [((32 : Byte).getLsbD 5, (2 : Byte))], x.1 = true ∧ 1 < x.2.toNat)
      ∧ ((0x40 : Byte).getLsbD 6 = true ∧ 1 < (2 : Byte).toNat) ∧ ((0x10 : Byte).getLsbD 4 = true ∧ 15 < (16 : Byte).toNat) :=
  ⟨rfl, rfl, rfl, rfl, rfl, rfl, rfl, rfl, rfl, by decide, by decide, by decide⟩

theorem test_frames_of_commands :
    WellFormed (.drive [1, 0, 200]) = true ∧ consoleFrame (.drive [1, 0, 200]) = some [0x23, 3, 1, 0, 200]
      ∧ incompleteFrame [0x23, 3, 1] = true ∧ (calm .run).held = false
      ∧ (State.por [] true false Store.fresh).held = true := by
  decide

/-- WAKE in SETTLE clocked with five bytes more: idle fill, the status, the length, the data, idle fill; two bytes more
lose the data; a held part sends idle fill alone. -/
theorem test_data_out :
    let s := { calm .settle with response := some { status := .ok, data := [1] } }
    exec (.wake []) (calm .settle) = .next s
      ∧ s.dataOut ([0x10, 0] ++ [0, 0, 0, 0, 0]) = [0xFF, 0xFF, 0xFF, Status.ok.code, 1, 1, 0xFF]
      ∧ s.dataOut ([0x10, 0] ++ [0, 0]) = [0xFF, 0xFF, 0xFF, Status.ok.code]
      ∧ { s with held := true }.dataOut [0x10, 0, 0, 0, 0] = [0xFF, 0xFF, 0xFF, 0xFF, 0xFF] :=
  ⟨rfl, rfl, rfl, rfl⟩

theorem test_wake_hypotheses :
    (Served (calm .standby) ∧ StandbyQuiet (calm .standby) ∧ (calm .standby).railflt = false)
      ∧ (let s := { calm .standby with railflt := true }
         Served s ∧ StandbyQuiet s ∧ s.track = .standby ∧ s.railflt = true)
      ∧ Served (calm .run) ∧ StandbyQuiet (calm .run) ∧ (calm .run).track ≠ .standby := by
  have q (b : Bool) : StandbyQuiet { calm .standby with railflt := b } := fun _ =>
    ⟨fun a sec h => absurd h (by rw [no_section rfl a]; simp), rfl, fun k => by fin_cases k <;> rfl⟩
  exact ⟨⟨served_calm _, q false, rfl⟩, ⟨⟨rfl, rfl⟩, q true, rfl, rfl⟩, served_calm _, quiet_of_track (by decide), by decide⟩

/-- The player of slot 1 holds WAKE. -/
def wakeful (t : TrackState) : State :=
  { paired t with
    options := { Options.por with handsetWake := true }
    cars := (paired t).cars.set 0 { (paired t).cars[0] with inputs := { Inputs.initial with wake := true } } }

theorem test_sleep_hypotheses :
    (Served (calm .halt) ∧ ClaimListsKept (calm .halt) ∧ ¬ WakeHeld (calm .halt))
      ∧ (Served (wakeful .settle) ∧ ClaimListsKept (wakeful .settle) ∧ (wakeful .settle).options.handsetWake = true
          ∧ (wakeful .settle).railflt = false
          ∧ HoldsWake (wakeful .settle) 0 ∧ ∀ j : Slot, j < 0 → ¬ HoldsWake (wakeful .settle) j)
      ∧ Served (calm .standby) ∧ Served (calm .run) :=
  ⟨⟨served_calm _, lists_of_none rfl, fun h => absurd h.1 (by decide)⟩,
    ⟨⟨rfl, rfl⟩, lists_of_none rfl, rfl, rfl, ⟨rfl, rfl, rfl⟩, fun j h => absurd h (Fin.not_lt_zero j)⟩,
    served_calm _, served_calm _⟩

/-- Statements about HALT, CAUTION and SET_OPTIONS: a PENDING request stands. -/
theorem test_denial_hypotheses :
    (Served racing ∧ ClaimListsKept racing ∧ racing.track = .run ∧ racing.options.cautionLanes = .deny ∧ ¬ NoPending racing)
      ∧ (let s := { racing with options := { Options.por with cautionLanes := .allow } }
         Served s ∧ ClaimListsKept s ∧ s.track = .run ∧ s.options.cautionLanes = .allow)
      ∧ (let s := { racing with track := .caution, options := { Options.por with cautionLanes := .allow } }
         Served s ∧ ClaimListsKept s ∧ s.track = .caution)
      ∧ Served (calm .halt) ∧ ClaimListsKept (calm .halt) ∧ Served (calm .settle) ∧ ClaimListsKept (calm .settle) := by
  refine ⟨⟨⟨rfl, rfl⟩, lists_racing, rfl, rfl, fun h => ?_⟩, ⟨⟨rfl, rfl⟩, lists_racing, rfl, rfl⟩,
    ⟨⟨rfl, rfl⟩, lists_racing, rfl⟩, served_calm _, lists_of_none rfl, served_calm _, lists_of_none rfl⟩
  exact h 0 _ rfl (request 0) (by decide) rfl

/-- HALT denies the request: its claim ENTERED and STRAIGHT with the clear time of the straight path, one DENY record of
reason STATE; the other claim stands. -/
theorem test_halt_denies :
    (match exec (.halt []) racing with
      | .next t => t.decisions == [denyRecord racing 0 0 .state none]
        && (t.sectionAt 0).map (fun sec => sec.claims) == some
          [{ request 0 with state := .entered, kind := .straightA, decideTime := none, clear := .unbounded, lapse := none },
            passing 1]
      | _ => false) = true := by
  decide +kernel

theorem test_go_hypotheses :
    let s := pairingIn .awaitHandset (calm .halt)
    Served s ∧ s.track = .halt ∧ s.pairing.state ≠ .idle ∧ Served (calm .caution) ∧ Served (calm .run) ∧ Served (calm .settle) :=
  ⟨⟨rfl, rfl⟩, rfl, by decide, served_calm _, served_calm _, served_calm _⟩

/-- The marks 63 with every value at its upper end, of options that do and that do not turn DENY. -/
theorem test_options_hypotheses :
    let m : Byte := 63
    let v : Byte := 1
    m.toNat < 64
      ∧ (∀ x ∈ [(m.getLsbD 0, v), (m.getLsbD 1, v), (m.getLsbD 2, v), (m.getLsbD 3, v), (m.getLsbD 4, v),
          (m.getLsbD 5, v)], x.1 = true → x.2.toNat ≤ 1) := by
  decide +kernel

/-- Every mark of SET_RAIL, SET_PAIRING, SET_CAR and SET_SECTION at once, the codes at their upper ends. -/
theorem test_marks_hypotheses :
    (3 : Byte).toNat < 4 ∧ (31 : Byte).toNat < 32 ∧ (15 : Byte).toNat < 16
      ∧ ((255 : Byte).getLsbD 6 = true → (1 : Byte).toNat ≤ 1) ∧ ((255 : Byte).getLsbD 7 = true → (1 : Byte).toNat ≤ 1)
      ∧ ((255 : Byte).getLsbD 3 = true → (15 : Byte).toNat ≤ 15) ∧ Served (calm .standby) :=
  ⟨by decide, by decide, by decide, by decide, by decide, by decide, served_calm _⟩

theorem test_drive_hypotheses :
    let s := { calm .run with cars := (calm .run).cars.set 7 { Car.por with consoleDrive := some 0 } }
    Served s ∧ (s.car 7).consoleDrive ≠ none ∧ (s.car 0).consoleDrive = none :=
  ⟨⟨rfl, rfl⟩, by decide, by decide⟩

/-- A write in flight; none in flight with no other slot dirty, and with a lower one. -/
theorem test_unbind_hypotheses :
    let s := { paired .run with store := { Store.fresh with load := .ready, inFlight := some ⟨0, none⟩ } }
    let waiting := (Vector.replicate 8 false).set 3 true
    Served s ∧ s.store.inFlight ≠ none ∧ Served (paired .run) ∧ (paired .run).store.inFlight = none
      ∧ LowestDirty ((paired .run).store.dirty.set 7 true) 7 ∧ LowestDirty (waiting.set 7 true) 3
      ∧ LowestDirty (waiting.set 0 true) 0 :=
  ⟨⟨rfl, rfl⟩, by decide, ⟨rfl, rfl⟩, rfl, ⟨rfl, by decide⟩, ⟨rfl, by decide⟩, ⟨rfl, by decide⟩⟩

theorem test_wipe_hypotheses :
    let s := pairingIn .confirm (paired .halt)
    Served s ∧ s.track = .halt ∧ s.pairing.state ≠ .idle ∧ s.store.inFlight = none
      ∧ Served (paired .standby) ∧ Served (paired .run) :=
  ⟨⟨rfl, rfl⟩, rfl, by decide, rfl, ⟨rfl, rfl⟩, ⟨rfl, rfl⟩⟩

theorem test_read_hypotheses :
    Served racing ∧ racing.sectionAt 0 = some { Section.created 0 with claims := [request 0, passing 1] }
      ∧ racing.sectionAt 14 = none :=
  ⟨⟨rfl, rfl⟩, rfl, rfl⟩

/-- READ_STATUS at track time 100,000 in RUN: no cause, no last wake and one, the lines and settings, empty counters. -/
theorem test_status_bytes :
    let s := calm .run
    let zeros (n : Nat) : List Byte := List.replicate n 0
    Layout.status s = [3, 0, 0, 0, 0, 0, 0, 1] ++ [0, 0x01, 0x86, 0xA0] ++ [0, 0, 6, 32] ++ zeros 14
      ∧ (Layout.status { s with cautionCause := some .nodeFault, lastWake := some (.handset 7) }).take 6 = [3, 1, 3, 1, 1, 8]
      ∧ (Layout.status { s with cautionCause := some .console, lastWake := some .console }).take 6 = [3, 1, 0, 1, 0, 0] := by
  decide +kernel

/-- A claim of READ_SECTION with a clear time and with an UNBOUNDED one, ANON and a slot. -/
theorem test_claim_bytes :
    Layout.claim (request 7)
        = [8, 2, 1, 2, 0, 1, 0x86, 0x3C, 0, 1, 0x86, 0xB4, 1, 0, 1, 0x89, 0x5C, 1, 0, 1, 0x86, 0x96, 0]
      ∧ Layout.claim { passing 0 with car := .anon, clear := .unbounded }
        = [0, 0, 1, 1, 0, 1, 0x86, 0x3C, 0, 1, 0x86, 0xB4, 2, 0, 0, 0, 0, 0, 0, 0, 0, 0, 0] := by
  decide +kernel

/-- A registry with eight SECTIONs and a PAD, its pairing at the pad. -/
def crowded : State :=
  { pairingIn .verify (calm .halt) with
    nodes := Vector.ofFn fun a : Addr =>
      if a.val < 8 then { Node.por with role := .sect, status := .unheard }
      else if a.val = 8 then { Node.por with role := .pad, status := .live } else Node.por
    sections := Vector.ofFn fun a : Addr => if a.val < 8 then some (Section.created 0) else none }

/-- A ninth SECTION and a second PAD; the role already held; a role that goes, of a SECTION and of the pad in use. -/
theorem test_set_node_hypotheses :
    Served crowded ∧ RegistryKept crowded
      ∧ 8 ≤ (allAddrs.filter fun b => b ≠ (9 : Addr) ∧ (crowded.node b).role = .sect).length
      ∧ 1 ≤ (allAddrs.filter fun b => b ≠ (9 : Addr) ∧ (crowded.node b).role = .pad).length
      ∧ (crowded.node 0).role = .sect ∧ (crowded.node 8).role = .pad ∧ (crowded.node 8).status = .live
      ∧ crowded.pairing.state = .verify ∧ (crowded.node 9).role = .none :=
  ⟨⟨rfl, rfl⟩, ⟨by decide, by decide, by decide, by decide⟩, by decide, by decide, rfl, rfl, rfl, rfl, rfl⟩

/-- A SECTION with a PENDING request loses its role. -/
theorem test_set_node_denies :
    Served racing ∧ RegistryKept racing ∧ ClaimListsKept racing ∧ (racing.node 0).role = .sect
      ∧ requestsAt racing .closed 0 = [⟨0, .closed, none⟩]
      ∧ (∀ a sec, crowded.sectionAt a = some sec → sec.claims = []) := by
  refine ⟨⟨rfl, rfl⟩, ⟨by decide, by decide, by decide, by decide⟩, lists_racing, rfl, rfl, ?_⟩
  decide +kernel

theorem test_close_hypotheses :
    let s := (noded (calm .run) .sect []).setSection 0 (some { Section.created 0 with admin := .closed })
    (Served racing ∧ racing.cautionRequests = [] ∧ ClaimListsKept racing ∧ racing.options.autoLateConflict = false
      ∧ ∃ sec, racing.sectionAt 0 = some sec ∧ sec.admin ≠ .closed ∧ sec.claims ≠ [])
      ∧ Served s ∧ ∃ sec, s.sectionAt 0 = some sec ∧ sec.admin = .closed :=
  ⟨⟨⟨rfl, rfl⟩, rfl, lists_racing, rfl, _, rfl, by decide, by decide⟩, ⟨rfl, rfl⟩, _, rfl, rfl⟩

theorem test_open_pairing_hypotheses :
    let s := noded (calm .halt) .pad []
    (Served s ∧ s.pairing.state = .idle ∧ s.track = .halt ∧ (s.node 0).role = .pad ∧ (s.node 0).status = .live)
      ∧ (Served (calm .halt) ∧ ¬ ∃ a, ((calm .halt).node a).role = .pad ∧ ((calm .halt).node a).status = .live)
      ∧ (calm .run).track ≠ .halt ∧ (pairingIn .awaitCar s).pairing.state ≠ .idle :=
  ⟨⟨⟨rfl, rfl⟩, rfl, rfl, rfl, rfl⟩, ⟨served_calm _, by decide⟩, by decide, by decide⟩

theorem test_pairing_end_hypotheses :
    let s := pairingIn .programming (calm .halt)
    Served s ∧ Running s ∧ s.pairing.state ≠ .idle ∧ expired s.now s.pairing.windowExpiry = true
      ∧ (calm .halt).pairing.state = .idle ∧ expired (s.now - 1) s.pairing.windowExpiry = false :=
  ⟨⟨rfl, rfl⟩, rfl, by decide, by decide, rfl, by decide⟩

/-- A verify expiry below and at the attempts limit of 2, and a confirm expiry. -/
theorem test_expiry_hypotheses :
    let s := pairingIn .verify (calm .halt)
    let last := { s with pairing := { s.pairing with attempt := 2 } }
    let c := { pairingIn .confirm (calm .halt) with pairing := { (pairingIn .confirm (calm .halt)).pairing with candidate := some 6 } }
    (Running s ∧ s.pairing.state = .verify ∧ expired s.now s.pairing.verifyExpiry = true ∧ s.track = .halt
        ∧ s.pairing.slot = some 1 ∧ s.pairing.attempt < s.params.attempts)
      ∧ (Running last ∧ last.params.attempts ≤ last.pairing.attempt)
      ∧ Running c ∧ c.pairing.state = .confirm ∧ expired c.now c.pairing.confirmExpiry = true ∧ c.pairing.slot = some 1
        ∧ c.pairing.candidate = some 6 ∧ c.store.inFlight = none ∧ LowestDirty (c.store.dirty.set 1 true) 1 :=
  ⟨⟨rfl, rfl, by decide, rfl, rfl, by decide⟩, ⟨rfl, by decide⟩, rfl, rfl, by decide, rfl, rfl, rfl, rfl, by decide⟩

theorem test_decision_queue_hypotheses :
    let s := recorded (calm .run) (plainRecord (calm .run) 14 .anon .lapse)
    Served s ∧ s.decisions = plainRecord (calm .run) 14 .anon .lapse :: [] ∧ (calm .halt).decisions = []
      ∧ (calm .halt).track = .halt ∧ s.track ≠ .halt :=
  ⟨⟨rfl, rfl⟩, rfl, rfl, rfl, by decide⟩

theorem test_reset_hypotheses :
    let s := { calm .run with softResetDue := true }
    let h := State.por [] true true Store.fresh
    Running s ∧ s.softResetDue = true ∧ Running (calm .run) ∧ (calm .run).softResetDue = false
      ∧ h.held = true ∧ h.store.inFlight = none ∧ (calm .run).held = false :=
  ⟨rfl, rfl, rfl, rfl, rfl, rfl, rfl⟩

/-- A store with a binding, the same binding again, and a damaged record. -/
theorem test_load_hypotheses :
    let s := { State.reset with store := { Store.fresh with
      records := ((Store.fresh.records.set 0 (bindingRecord 0 (some 5))).set 1 (bindingRecord 1 (some 5))).set 7 .damaged } }
    Running s ∧ s.store.load = .loading ∧ readRecord 0 s.store.records[0] = some (some 5)
      ∧ readRecord 1 s.store.records[1] = some (some 5) ∧ readRecord 2 s.store.records[2] = some none
      ∧ readRecord 7 s.store.records[7] = none ∧ (calm .halt).store.load = .ready := by
  refine ⟨rfl, rfl, ?_, ?_, ?_, ?_, rfl⟩ <;> decide +kernel

/-- A frame of slot 1's handset that is applied, one that repeats, one that wakes the track. -/
theorem test_accepted_hypotheses :
    let w := { frame with wake := true }
    (Running (paired .run) ∧ IdentitiesDistinct (paired .run) ∧ (paired .run).receiver = .hunt ∧ FrameFits frame
        ∧ ((paired .run).car 0).binding = some frame.hid ∧ ((paired .run).car 0).lastSeq ≠ some frame.seq)
      ∧ ((paired .run).car 0).lastSeq = some ({ frame with seq := 3 } : HandsetFrame).seq
      ∧ (FrameFits { w with bind := true } ∧ (wakeful .standby).pairing.state = .idle)
      ∧ Running (wakeful .standby) ∧ FrameFits w ∧ w.wake = true ∧ (wakeful .standby).options.handsetWake = true
        ∧ (wakeful .standby).track = .standby ∧ (wakeful .standby).railflt = false ∧ StandbyQuiet (wakeful .standby) := by
  refine ⟨⟨rfl, identities_paired _, rfl, ⟨by decide, by decide, by decide, by decide⟩, rfl, by decide⟩, rfl,
    ⟨⟨by decide, by decide, by decide, by decide⟩, rfl⟩, rfl, ⟨by decide, by decide, by decide, by decide⟩, rfl, rfl, rfl,
    rfl, fun _ => ⟨?_, rfl, fun k => by fin_cases k <;> rfl⟩⟩
  intro a sec h
  exact absurd h (by rw [no_section rfl a]; simp)

/-- BIND from an unbound handset, from the slot's own handset, and from one bound elsewhere. -/
theorem test_bind_hypotheses :
    let f := { frame with bind := true }
    let away : HandsetFrame := { f with hid := 6 }
    FrameFits f ∧ FrameFits away ∧ f.bind = true ∧ f.wake = false
      ∧ (∀ j, ((paired .halt).car j).binding = some f.hid ↔ some (0 : Slot) = some j)
      ∧ (∀ j, ((paired .halt).car j).binding = some away.hid ↔ (none : Option Slot) = some j)
      ∧ (∀ j, some (0 : Slot) = some j → ((paired .halt).car j).lastSeq ≠ some f.seq)
      ∧ ¬ (some (0 : Slot) = none ∨ some (0 : Slot) = (pairingIn .awaitHandset (paired .halt)).pairing.slot)
      ∧ (pairingIn .confirm (paired .halt)).pairing.state = .confirm
      ∧ (({ f with wake := true } : HandsetFrame).wake = true ∧ (paired .halt).track ≠ .standby) :=
  ⟨⟨by decide, by decide, by decide, by decide⟩, ⟨by decide, by decide, by decide, by decide⟩, rfl, rfl, by decide,
    by decide, by decide, by decide, rfl, rfl, by decide⟩

/-- A list with handset 9 alone, and a full list, heard from handset 5. -/
theorem test_unbound_hypotheses :
    let e (h : Hid) : UnboundEntry := { hid := h, lastSeq := 0, lastHeard := 99000, bind := false, batt := 7 }
    let full := { calm .run with unbound := [e 9, e 10, e 11, e 12, e 13, e 14] }
    let listed := { calm .run with unbound := [e 5] }
    (IdentitiesDistinct full ∧ QueuesBounded full ∧ full.unbound.length = 6 ∧ ∀ x ∈ full.unbound, x.hid ≠ frame.hid)
      ∧ IdentitiesDistinct listed ∧ QueuesBounded listed ∧ (∃ x ∈ listed.unbound, x.hid = frame.hid)
      ∧ (∀ j, (listed.car j).binding ≠ some frame.hid) ∧ listed.unbound.length < 6 := by
  have none_bound (k : Slot) : ((calm .run).car k).binding = none := by fin_cases k <;> rfl
  refine ⟨⟨⟨?_, by simp [calm, State.reset, State.por, Pairing.idle], by decide, fun x _ k => ?_, by decide⟩,
      ⟨by decide, by decide, by decide, by decide, by decide, rfl, by decide⟩, rfl, by decide⟩,
    ⟨?_, by simp [calm, State.reset, State.por, Pairing.idle], by decide, fun x _ k => ?_, by decide⟩,
    ⟨by decide, by decide, by decide, by decide, by decide, rfl, by decide⟩, by decide, by decide, by decide⟩
  all_goals first
    | (intro j k h hj; exact absurd ((none_bound j).symm.trans hj) (by simp))
    | (intro h; exact absurd ((none_bound k).symm.trans h) (by simp))

/-- The receiver in HUNT, after the start byte, between its ends and before the last character. -/
theorem test_receiver_hypotheses :
    let s (l : List Byte) := { calm .run with receiver := .inFrame l }
    Running (calm .run) ∧ (calm .run).receiver = .hunt ∧ Running (s []) ∧ (s [7]).receiver = .inFrame [7]
      ∧ 0 < ([7] : List Byte).length ∧ ([7, 0, 0, 0, 5, 0, 0, 0] : List Byte).length = 8
      ∧ (crc8 [7, 0, 0, 0, 5, 0, 0, 0] + 1) ≠ crc8 [7, 0, 0, 0, 5, 0, 0, 0]
      ∧ [7, 0, 0, 0, 5, 0x14, 149, 1] ++ [crc8 [7, 0, 0, 0, 5, 0x14, 149, 1]] = (handsetBytes frame).drop 1 := by
  refine ⟨rfl, rfl, rfl, rfl, by decide, rfl, ?_, ?_⟩
  · decide +kernel
  · decide +kernel

/-- The figures of Table 12-3 and Table 12-2: a THROW of section 15 for car 8 on lane B, held 1995 ms, while it is sent; a
BOUND notice of handset 01020304h. -/
theorem test_transmit_lines :
    let s := { calm .run with
      throws := [⟨14, .b, 7, 20, 40, 1995⟩], throwSending := true, notices := [⟨0x01020304, .bound⟩] }
    s.busLine.map (·.take 9) = some [0x00, 0x0F, 0x10, 0x01, 0x08, 20, 40, 0x07, 0xCB]
      ∧ s.busLine.map List.length = some 10
      ∧ s.noticeLine.map (·.take 7) = some [0x5A, 0x05, 1, 2, 3, 4, 0x01]
      ∧ s.noticeLine.map List.length = some 8
      ∧ (calm .run).notices = [] ∧ (calm .run).throwSending = false := by
  refine ⟨?_, ?_, ?_, ?_, rfl, rfl⟩ <;> decide +kernel

theorem test_list_timer_hypotheses :
    let s := { calm .run with throws := [⟨0, .a, 0, 5, 10, 0⟩], throwSending := true }
    let o := (calm .run).setSection 14 (some { Section.created 0 with overflow := true, lastOverflow := some 97000 })
    Running s ∧ s.throws ≠ [] ∧ s.throwSending = true ∧ (calm .run).throws = [] ∧ (calm .run).throwSending = false
      ∧ (∃ sec, o.sectionAt 14 = some sec ∧ sec.lastOverflow = some 97000) ∧ Reached o.now (97000 + 3000)
      ∧ ¬ Reached (o.now - 1) (97000 + 3000) :=
  ⟨rfl, by decide, rfl, rfl, rfl, ⟨_, rfl, rfl⟩, by unfold Reached; decide, by unfold Reached; decide⟩

/-- A watch timer due in LIVE above and at level 0, and in FADE with a cap that stays above 0 and one that does not. -/
theorem test_watch_hypotheses :
    let at_ (l : LinkState) (out cap : Nat) : Car := { Car.por with link := l, output := out, fadeCap := cap }
    (paired .run).watchOf 0 = some 100000 ∧ Reached (paired .run).now 100000 ∧ ¬ Reached (99999#32) 100000
      ∧ 0 < (at_ .live 1 255).output ∧ (at_ .live 0 255).output = 0
      ∧ 0 < (at_ .fade 33 33).fadeCap - (at_ .fade 33 33).fadeStep
      ∧ (at_ .fade 32 32).fadeCap - (at_ .fade 32 32).fadeStep = 0 :=
  ⟨rfl, by unfold Reached; decide, by unfold Reached; decide, by decide, rfl, by decide, by decide⟩

/-- A frame start that is due, in RUN and in HALT with a burst, and one that is not. -/
theorem test_frame_start_hypotheses :
    let s := { calm .halt with rail := { (calm .halt).rail with
      burst := .active, burstSlot := some 7, burstRepeat := some 4, programSent := 3 } }
    Running s ∧ s.rail.power = true ∧ s.rail.nextStart = some 100000 ∧ Reached s.now 100000
      ∧ s.rail.programSent < 4 ∧ Stopped s.track ∧ (calm .standby).rail.power = false ∧ ¬ Stopped (calm .run).track :=
  ⟨rfl, rfl, rfl, by unfold Reached; decide, by decide, .inr (.inr rfl), rfl, by unfold Stopped; decide⟩

theorem test_settle_and_burst_hypotheses :
    let s := { calm .halt with rail := { (calm .halt).rail with
      burst := .active, burstSlot := some 1, burstRepeat := some 4, programSent := 4 } }
    (Running (calm .settle) ∧ RequestsAllowed (calm .settle) ∧ (calm .settle).rail.settleCounter = 0)
      ∧ Running s ∧ RequestsAllowed s ∧ s.rail.burst = .active ∧ s.rail.burstRepeat = some 4
      ∧ (4 : Nat) ≤ s.rail.programSent := by
  have r (s : State) (h : s.sections = Vector.replicate 15 none) : RequestsAllowed s := fun _ _ a sec ha => by
    rw [no_section h a] at ha
    exact absurd ha (by simp)
  exact ⟨⟨rfl, r _ rfl, rfl⟩, rfl, r _ rfl, rfl, rfl, Nat.le_refl 4⟩

theorem test_railflt_hypotheses :
    racing.held = false ∧ racing.track ≠ .standby ∧ ClaimListsKept racing ∧ (calm .standby).track = .standby :=
  ⟨rfl, by decide, lists_racing, rfl⟩

/-- Frames on the bus: one that fails a check, one for another station, HELLO of the right and of a wrong kind. -/
theorem test_bus_hypotheses :
    let live := noded (calm .run) .pad []
    let silent := { live with nodes := live.nodes.set 0 { live.nodes[0] with status := .mismatch } }
    Running live ∧ live.cautionRequests = [] ∧ parseBusFrame [] = .bad
      ∧ parseBusFrame [1, 2, 1, 1, crc8 [1, 2, 1, 1]] = .elsewhere
      ∧ parseBusFrame (nodeFrameBytes 0 (.hello .pad)) = .message 0 (.hello .pad)
      ∧ live.track ≠ .standby ∧ (live.node 0).status = .live ∧ Takes (live.node 0).role (.hello .gate)
      ∧ helloStatus (live.node 0).role .gate ≠ .live ∧ NeedsPad (pairingIn .awaitCar live).pairing.state
      ∧ (silent.node 0).status = .mismatch ∧ Takes (silent.node 0).role (.pad .empty none)
      ∧ (live.node 14).status = .unconfigured ∧ (live.node 0).lastHeard = some 97000 ∧ Reached live.now (97000 + 3000) := by
  refine ⟨rfl, rfl, rfl, ?_, ?_, by decide, rfl, .inr (.inr rfl), by decide, .inl rfl, rfl, rfl, rfl, rfl, ?_⟩
  · decide +kernel
  · decide +kernel
  · unfold Reached; decide

/-- Payloads at the ends of each kind and past them; a bus frame of three bytes; the reading of a sealed frame. -/
theorem test_payload_hypotheses :
    PayloadFits 1 [2] ∧ ¬ PayloadFits 1 [3] ∧ PayloadFits 2 [0xFF, 0xFF, 0xFF] ∧ ¬ PayloadFits 2 [0, 0]
      ∧ PayloadFits 3 [2, 0xFF] ∧ ¬ PayloadFits 3 [3, 0] ∧ PayloadFits 4 [2] ∧ ¬ PayloadFits 5 [0]
      ∧ (0xFF : Byte).toNat % 16 = addrNumber 14 ∧ (0xF0 : Byte).toNat % 16 = 0 ∧ ([1, 0, 1] : List Byte).length < 4
      ∧ parseBusFrame ([0xFF, 0xF0, 1, 2] ++ [crc8 [0xFF, 0xF0, 1, 2]]) = .message 14 (.hello .pad) := by
  refine ⟨.inl ⟨rfl, 2, rfl, by decide⟩, ?_, .inr (.inl ⟨rfl, rfl⟩), ?_, .inr (.inr (.inl ⟨rfl, 2, 0xFF, rfl, by decide⟩)), ?_,
    .inr (.inr (.inr ⟨rfl, 2, rfl, by decide⟩)), ?_, by decide, by decide, by decide, by decide +kernel⟩
  all_goals simp [PayloadFits]

/-- Reports of a LIVE pad in HALT with its pairing, and of a LIVE section in RUN. -/
theorem test_report_hypotheses :
    let p := pairingIn .awaitCar (noded (calm .halt) .pad [])
    let auto := { racing with options := { Options.por with autoNodeFault := true } }
    (Running p ∧ p.cautionRequests = [] ∧ p.track = .halt ∧ (p.node 0).status = .live ∧ (p.node 0).role = .pad
        ∧ parseBusFrame (nodeFrameBytes 0 (.pad .one (some 4))) = .message 0 (.pad .one (some 4))
        ∧ parseBusFrame (nodeFrameBytes 0 (.pad .empty none)) = .message 0 (.pad .empty none)
        ∧ p.pairing.mode = some .auto ∧ (p.car 0).binding = none ∧ (p.car 0).consoleDrive = none)
      ∧ (Running racing ∧ (racing.node 0).role = .sect ∧ (racing.node 0).status = .live
          ∧ parseBusFrame (nodeFrameBytes 0 (.fault .coilShort)) = .message 0 (.fault .coilShort)
          ∧ racing.options.autoLateConflict = false ∧ racing.options.autoNodeFault = false)
      ∧ auto.track = .run ∧ auto.options.autoNodeFault = true ∧ (auto.node 0).role = .sect := by
  refine ⟨⟨rfl, rfl, rfl, rfl, rfl, ?_, ?_, rfl, rfl, rfl⟩, ⟨rfl, rfl, rfl, ?_, rfl, rfl⟩, rfl, rfl, rfl⟩ <;> decide +kernel

/-- One car on the pad for a pairing of slot 7, and under AUTO where seven slots are bound and the eighth is under console
drive: the pairing ends NO_SLOT. -/
theorem test_slot_choice_hypotheses :
    let p := pairingIn .awaitCar (noded (calm .halt) .pad [])
    let named := { p with pairing := { p.pairing with mode := some (.slot 6), slot := some 6 } }
    let taken := { p with cars := Vector.ofFn fun k : Slot =>
      if k = 7 then { Car.por with consoleDrive := some 0 }
      else { Car.por with binding := some (BitVec.ofNat 32 (k.val + 1)), link := .silent } }
    (Running named ∧ named.cautionRequests = [] ∧ named.track = .halt ∧ (named.node 0).role = .pad
        ∧ (named.node 0).status = .live ∧ named.pairing.state = .awaitCar ∧ named.pairing.mode = some (.slot 6))
      ∧ (Running taken ∧ taken.cautionRequests = [] ∧ taken.track = .halt ∧ (taken.node 0).role = .pad
          ∧ (taken.node 0).status = .live ∧ taken.pairing.state = .awaitCar ∧ taken.pairing.mode = some .auto
          ∧ ∀ k, ¬ ((taken.car k).binding = none ∧ (taken.car k).consoleDrive = none))
      ∧ (match exec (.nodeFrame (nodeFrameBytes 0 (.pad .one (some 4)))) taken with
        | .next t => t.result.outcome == .noSlot && t.pairing == Pairing.idle
        | _ => false) = true := by
  refine ⟨⟨rfl, rfl, rfl, rfl, rfl, rfl, rfl⟩, ⟨rfl, rfl, rfl, rfl, rfl, rfl, rfl, by decide⟩, ?_⟩
  decide +kernel

/-- A failed attempt below and at the limit of 2: a wrong number, none, many cars; the report of a SILENT pad. -/
theorem test_failed_attempt_hypotheses :
    let p := pairingIn .verify (noded (calm .halt) .pad [])
    let silent := { p with nodes := p.nodes.set 0 { p.nodes[0] with status := .silent } }
    (p.pairing.state = .verify ∧ p.track = .halt ∧ p.pairing.slot = some 1 ∧ p.pairing.attempt < p.params.attempts
        ∧ some (4 : Slot) ≠ p.pairing.slot ∧ ¬ (2 : Nat) < p.params.attempts)
      ∧ parseBusFrame (nodeFrameBytes 0 (.pad .one none)) = .message 0 (.pad .one none)
      ∧ parseBusFrame (nodeFrameBytes 0 (.pad .many none)) = .message 0 (.pad .many none)
      ∧ (silent.node 0).status = .silent ∧ ((reported silent 0).node 0).status = .live
      ∧ (reported silent 0).flags.node = true := by
  refine ⟨⟨rfl, rfl, rfl, by decide, by decide, by decide⟩, ?_, ?_, rfl, rfl, rfl⟩ <;> decide +kernel

/-- Claims whose lapse time is reached: PENDING at place 0, ENTERED at place 1; and one whose time is not. -/
theorem test_lapse_hypotheses :
    let later := { racing with now := 99999 }
    Running racing ∧ racing.cautionRequests = []
      ∧ (∃ sec, racing.sectionAt 0 = some sec ∧ sec.claims[0]? = some (request 0) ∧ sec.claims[1]? = some (passing 1))
      ∧ (request 0).lapse = some 100000 ∧ Reached racing.now 100000 ∧ ¬ Reached later.now 100000
      ∧ ClaimListsKept racing ∧ racing.sectionAt 14 = none := by
  refine ⟨rfl, rfl, ⟨_, rfl, rfl, rfl⟩, rfl, ?_, ?_, lists_racing, rfl⟩
  · unfold Reached; decide
  · unfold Reached; decide

/-- The lapse of the ENTERED claim in RUN with the auto-caution LAPSE enabled: the claim gone and counted, the LAPSE record,
then CAUTION with the request beside it denied. -/
theorem test_lapse_calls_for_a_caution :
    let s := { racing with options := { Options.por with autoLapse := true } }
    Running s ∧ ClaimListsKept s
      ∧ (match exec (.claimLapse 0 1) s with
        | .next t => t.decisions == [plainRecord s 0 (.slot 1) .lapse, denyRecord s 0 0 .state none]
          && t.cautionCause == some .lapse
          && (t.sectionAt 0).map (fun sec => (sec.lapseCount, sec.claims.map fun c => (c.car, c.state)))
            == some (1, [(.slot 0, .entered)])
        | _ => false) = true := by
  refine ⟨rfl, lists_racing, ?_⟩
  decide +kernel

/-- Decisions of slot 1's request: a closed section, a blind one, an empty conflict set, a conflict, a lone contestant
whose rival is not eligible, a contest of two from the pointer 2. -/
theorem test_decision_hypotheses :
    let with_ (l : List Claim) : Section := { Section.created 0 with claims := l }
    let sec := with_ [request 0, passing 1]
    let rivals (l : List Claim) (r : Claim) : List Claim := l.filter fun d => decide (d.car ≠ r.car) && conflicts 40 r d
    let waiting (l : List Claim) : Bool := l.all fun d => decide (d.state = .pending)
    let contestants (p : Slot) (l : List Claim) : List Slot := ([0, 1, 2, 3, 4, 5, 6, 7].map fun i => p + i).filter fun j =>
      decide (j = 0) || (rivals l (request 0)).any fun d => decide (d.car = .slot j) && waiting (rivals l d)
    let held : List Claim := [request 0, rival 1, passing 2]
    (Running racing ∧ racing.cautionRequests = [] ∧ racing.track = .run ∧ ClaimListsKept racing
        ∧ racing.sectionAt 0 = some sec ∧ (request 0).decideTime = some 99990 ∧ Reached racing.now 99990
        ∧ ¬ Reached (99989#32) 99990 ∧ ¬ Blinded racing sec ∧ racing.throws.length < 4)
      ∧ Blinded racing { with_ [] with overflow := true } ∧ rivals sec.claims (request 0) = []
      ∧ rivals [request 0, { rival 1 with state := .granted }] (request 0) = [{ rival 1 with state := .granted }]
      ∧ (rivals held (request 0) = [rival 1] ∧ waiting [rival 1] = true ∧ waiting (rivals held (rival 1)) = false
          ∧ contestants 1 held = [0])
      ∧ contestants 1 [request 0, rival 1] = [1, 0]
      ∧ ClaimListsKept (noded (paired .run) .sect [request 0, rival 1]) ∧ ClaimListsKept (noded (paired .run) .sect held) := by
  refine ⟨⟨rfl, rfl, rfl, lists_racing, rfl, rfl, ?_, ?_, ?_, by decide⟩, .inl rfl, by decide, by decide,
    ⟨by decide, by decide, by decide, by decide⟩, by decide, lists_of_one rfl (by decide) (by decide) (by decide),
    lists_of_one rfl (by decide) (by decide) (by decide)⟩
  · unfold Reached; decide
  · unfold Reached; decide
  · rintro (h | ⟨l, h | h, -⟩) <;> exact nomatch h

/-- A lone request and a contest of two at a transmit queue with one place left and with none: the full queue denies the
winner BUS_BUSY and the other CONTEST_LOST. -/
theorem test_full_queue_hypotheses :
    let s (l : List Claim) (n : Nat) : State :=
      { noded (paired .run) .sect l with throws := List.replicate n ⟨1, .a, 3, 20, 40, 100⟩ }
    let both : List Claim := [request 0, rival 1]
    let rivals (r : Claim) : List Claim := both.filter fun d => decide (d.car ≠ r.car) && conflicts 40 r d
    let contestants : List Slot := ([0, 1, 2, 3, 4, 5, 6, 7].map fun i => (0 : Slot) + i).filter fun j =>
      decide (j = 0) || (rivals (request 0)).any fun d =>
        decide (d.car = .slot j) && (rivals d).all fun e => decide (e.state = .pending)
    (Running (s both 4) ∧ (s both 4).cautionRequests = [] ∧ (s both 4).track = .run ∧ ClaimListsKept (s both 4)
        ∧ (s both 4).sectionAt 0 = some { Section.created 0 with claims := both }
        ∧ 4 ≤ (s both 4).throws.length ∧ (s both 3).throws.length < 4 ∧ contestants = [0, 1])
      ∧ ClaimListsKept (s [request 0] 4) ∧ (s [request 0] 4).sectionAt 0 = some { Section.created 0 with claims := [request 0] }
      ∧ ¬ Blinded (s both 4) { Section.created 0 with claims := both }
      ∧ (match exec (.decideTimeExpiry 0 0) (s both 4) with
        | .next t => t.decisions == [denyRecord (s both 4) 0 0 .busBusy none,
            denyRecord (s both 4) 0 1 .contestLost (some (.slot 0))]
        | _ => false) = true := by
  refine ⟨⟨rfl, rfl, rfl, lists_of_one rfl (by decide) (by decide) (by decide), rfl, by decide, by decide, by decide⟩,
    lists_of_one rfl (by decide) (by decide) (by decide), rfl, ?_, by decide +kernel⟩
  rintro (h | ⟨l, h | h, -⟩) <;> exact nomatch h

/-- The claims of six other slots: a full list. -/
def crowd : List Claim := [passing 1, passing 2, passing 3, passing 4, passing 5, passing 6]

/-- An ENTERED ANON claim on lane B. -/
def stranger : Claim := { passing 1 with car := .anon, kind := .straightB, exitLane := .b }

/-- A section at address 1 with these claims, and what an entry of slot 1 on lane A at this sense time makes of it. -/
def entering (s : State) (l : List Claim) (sense : TrackTime) : State :=
  enteredSection (sighted (reported s 0) 0 .entry .a sense 0) 0 { Section.created 0 with claims := l } 0 .a sense

/-- Slot 1's claim at address 1. -/
def ownClaim (s : State) : Option Claim :=
  (s.sectionAt 0).bind fun sec => sec.claims.find? fun c => decide (c.car = .slot 0)

/-- Entries of slot 1, not armed: at an empty list, at a PREDICTED claim, at an ENTERED one, at a full list; a repeat
999 ms later. -/
theorem test_sighting_hypotheses :
    let s (l : List Claim) := noded (paired .run) .sect l
    let seen : Position := { Position.absent with
      lastNode := some 0, lastLane := some .b, lastSensor := some .entry, lastSeen := some 98746 }
    let predicted : Claim := { passing 0 with state := .predicted, origin := .lookahead }
    (Running (s []) ∧ (s []).cautionRequests = [] ∧ (s []).track ≠ .standby ∧ ClaimListsKept (s []) ∧ ClaimListsKept (s crowd)
        ∧ ((s []).node 0).status = .live ∧ ((s []).node 0).role = .sect ∧ ((s []).position 0).lastSeen = none
        ∧ parseBusFrame (nodeFrameBytes 0 (.sense .entry .b (some 0) 255)) = .message 0 (.sense .entry .b (some 0) 255))
      ∧ (seen.lastNode = some 0 ∧ ((s []).now - BitVec.ofNat 32 255 - 98746).toInt = 999)
      ∧ ((entering (s []) [] 100000).car 0).armed = false
      ∧ (ownClaim (entering (s []) [] 100000)).isSome = true
      ∧ (ownClaim (entering (s [predicted]) [predicted] 100000)).map (fun c => c.origin) = some .lookahead
      ∧ ((entering (s [passing 0]) [passing 0] 100000).sectionAt 0).map (fun sec => sec.lapseCount) = some 1
      ∧ ownClaim (entering (s crowd) crowd 100000) = none := by
  refine ⟨⟨rfl, rfl, by decide, lists_of_one rfl (by decide) (by decide) (by decide),
    lists_of_one rfl (by decide) (by decide) (by decide), rfl, rfl, rfl, ?_⟩, ⟨rfl, ?_⟩, ?_, ?_, ?_, ?_, ?_⟩ <;> decide +kernel

/-- An UNREAD car at a section with room and with none, at its exit with an ANON claim on the lane and without, and at a
gate. -/
theorem test_unread_hypotheses :
    (∃ l c r, ([passing 1, stranger] : List Claim) = l ++ c :: r ∧ (∀ d ∈ l, ¬ (d.car = .anon ∧ d.kind = .straightB))
        ∧ c.car = .anon ∧ c.kind = .straightB)
      ∧ (∀ c ∈ crowd, c.car ≠ .anon) ∧ crowd.length = 6
      ∧ ClaimListsKept (noded (calm .run) .sect [passing 1, stranger]) ∧ ((noded (calm .run) .gate []).node 0).role = .gate
      ∧ parseBusFrame (nodeFrameBytes 0 (.sense .exit .b none 0)) = .message 0 (.sense .exit .b none 0)
      ∧ parseBusFrame (nodeFrameBytes 0 (.sense .entry .b none 0)) = .message 0 (.sense .entry .b none 0) := by
  refine ⟨⟨[passing 1], stranger, [], rfl, by decide, rfl, rfl⟩, by decide, rfl,
    lists_of_one rfl (by decide) (by decide) (by decide), rfl, ?_, ?_⟩ <;> decide +kernel

/-- Armed entries of slot 1: not yet due at age 0, due at age 80, late at age 255, slow at level 48; a full list; a state,
a section and a BLIND section that refuse; CAUTION under ALLOW. -/
theorem test_request_hypotheses :
    let fast (r : Car) : Car := { r with armed := true }
    let s (l : List Claim) : State :=
      { noded (paired .run) .sect l with cars := (paired .run).cars.set 0 (fast (paired .run).cars[0]) }
    let slow : State := { s [] with cars := (s []).cars.set 0 { (s []).cars[0] with output := 48 } }
    let enter (t : TrackTime) := (ownClaim (entering (s []) [] t)).map fun c => c.enter
    let w (x : State) (t : TrackTime) := windowOf (x.car 0) (x.car 0).output t 250 600
    let allow : State := { s [] with track := .caution, options := { Options.por with cautionLanes := .allow } }
    (Running (s []) ∧ RegistryKept (s []) ∧ ClaimListsKept (s []) ∧ ((entering (s []) [] 100000).car 0).armed = true
        ∧ ((entering (s crowd) crowd 100000).car 0).armed = true ∧ ownClaim (entering (s crowd) crowd 100000) = none)
      ∧ (enter 100000 = some 100107 ∧ ¬ Reached 100000 (100107 - BitVec.ofNat 32 30) ∧ (w (s []) 100000).2 ≠ .unbounded)
      ∧ (enter 99920 = some 100027 ∧ ¬ Reached 100000 100027 ∧ Reached 100000 (100027 - BitVec.ofNat 32 30))
      ∧ (enter 99745 = some 99852 ∧ Reached 100000 99852) ∧ (w slow 100000).2 = .unbounded
      ∧ ({ Section.created 0 with admin := .closing } : Section).admin ≠ .opened
      ∧ Blinded (s []) { Section.created 0 with overflow := true } ∧ ¬ Blinded (s []) (Section.created 0)
      ∧ (¬ (calm .halt).track = .run ∧ (calm .halt).track ≠ .caution)
      ∧ (allow.track = .caution ∧ allow.options.cautionLanes = .allow) := by
  refine ⟨⟨rfl, ⟨by decide, by decide, by decide, by decide⟩, lists_of_one rfl (by decide) (by decide) (by decide), ?_, ?_,
    ?_⟩, ⟨?_, ?_, ?_⟩, ⟨?_, ?_, ?_⟩, ⟨?_, ?_⟩, ?_, by decide, .inl rfl, ?_, by decide, rfl, rfl⟩
  all_goals try unfold Reached
  all_goals first
    | decide +kernel
    | (rintro (h | ⟨l, h | h, -⟩) <;> exact nomatch h)

/-- An exit with a claim of each state, its lane right and wrong, and a gate looked ahead from at one section. -/
theorem test_exit_and_gate_hypotheses :
    let s (c : Claim) := noded (paired .run) .sect [c]
    let g := (noded (calm .run) .gate []).setSection 1
      (some { Section.created 0 with map := { SectionMap.initial with linkA := some ⟨0, 30000⟩ } })
    endingRecords (s (request 0)) 0 0 .b (endingClaim (s (request 0)) 0 true 0 0)
        = [denyRecord (s (request 0)) 0 0 .tooLate none, plainRecord (s (request 0)) 0 (.slot 0) .unexpectedCross]
      ∧ endingRecords (s { request 0 with state := .granted, exitLane := .b }) 0 0 .a
          (endingClaim (s { request 0 with state := .granted, exitLane := .b }) 0 true 0 0)
        = [plainRecord (s (request 0)) 0 (.slot 0) .missedThrow]
      ∧ endingClaim (s { passing 0 with state := .predicted }) 1 false 0 0 = none
      ∧ endingClaim (s (passing 0)) 1 false 0 0 = some (passing 0)
      ∧ RegistryKept (s (request 0)) ∧ (g.node 0).role = .gate
      ∧ ((lookedAhead g 0 .a 100000 3).sectionAt 1).map (fun sec => sec.claims.map fun c => (c.car, c.state))
          = some [(.slot 3, .predicted)] := by
  refine ⟨rfl, rfl, rfl, rfl, ⟨by decide, by decide, by decide, by decide⟩, rfl, ?_⟩
  decide +kernel

theorem test_write_hypotheses :
    let s := { calm .halt with
      store := { Store.fresh with load := .ready, inFlight := some ⟨7, some 5⟩, dirty := (Vector.replicate 8 false).set 7 true } }
    Running s ∧ s.store.inFlight = some ⟨7, some 5⟩ ∧ LowestDirty s.store.dirty 7
      ∧ (calm .halt).store.inFlight = none :=
  ⟨rfl, rfl, ⟨rfl, by decide⟩, rfl⟩

/-- Calibrations at their ends, and the rows of R43 on a slot that meets each. -/
theorem test_arithmetic_hypotheses :
    (254 : Nat) < 255 ∧ (255 : Nat) ≤ 255 ∧ Stopped .standby ∧ ¬ Stopped .run ∧ (crossing.position 3).level = some 160
      ∧ SectionMap.initial.pullIn ≤ SectionMap.initial.coilLimit :=
  ⟨by decide, by decide, .inl rfl, by unfold Stopped; decide, rfl, by decide⟩

/-- Records of slot 3 that are not good: cut short, a check byte one off, the record of slot 4, identity 0; and a good and
an erased one. -/
theorem test_record_readings :
    let record (slot h3 h2 h1 h0 : Byte) (off : Byte) : StoredRecord :=
      .bytes slot h3 h2 h1 h0 (crc8 [slot, h3, h2, h1, h0] + off)
    readRecord 2 .damaged = none ∧ readRecord 2 (record 3 1 2 3 4 1) = none ∧ readRecord 2 (record 4 1 2 3 4 0) = none
      ∧ readRecord 2 (record 3 0 0 0 0 0) = none ∧ readRecord 2 (record 3 1 2 3 4 0) = some (some 0x01020304)
      ∧ readRecord 2 (record 3 0xFF 0xFF 0xFF 0xFF 0) = some none := by
  decide +kernel

/-- The program frame of slot 3, bytes 03h and FCh, on PADFEED (R199). -/
theorem test_program_bits :
    (programFrame 2).bits = List.replicate 16 true ++ [false]
      ++ [true, true, false, false, false, false, false, false]
      ++ [false, false, true, true, true, true, true, true] := by
  decide +kernel

/-- A frame, a message and a binding record at the ends of their fields. -/
theorem test_layout_hypotheses :
    (15 : Nat) < 16 ∧ (255 : Nat) < 256 ∧ (7 : Nat) < 8
      ∧ (∀ x l c age, NodeMessage.sense .exit .b (some 7) 255 = .sense x l c age → age < 256)
      ∧ ((0xFFFFFFFE#32 : Hid) ≠ 0 ∧ (0xFFFFFFFE#32 : Hid) ≠ 0xFFFFFFFF#32) := by
  refine ⟨by decide, by decide, by decide, ?_, by decide, by decide⟩
  intro x l c age h
  injection h with _ _ _ h4
  omega

/-- The invariants together, in a state of a race with a step ahead of it. -/
theorem test_invariants_meet_in_a_race :
    let s := { racing with pending := [.frameStart] }
    TrackFollowers s ∧ QueuesBounded s ∧ RegistryKept s ∧ StandbyQuiet s ∧ ClaimListsKept s ∧ RequestsAllowed s
      ∧ CarsKept s ∧ IdentitiesDistinct s ∧ ∃ t, step s = .next t := by
  refine ⟨⟨by decide, rfl, fun _ => rfl, by decide, by decide⟩, ⟨by decide, by decide, by decide, by decide, by decide, rfl, by decide⟩,
    registry_racing, quiet_of_track (by decide), lists_racing, fun h => absurd rfl h, ?_, ?_, ?_⟩
  · intro k
    have c (r : Car) (h : r = Car.por ∨ r = racing.car 0) : CarFits r := by
      rcases h with rfl | rfl <;> constructor <;> decide
    fin_cases k
    · exact ⟨c _ (.inr rfl), by decide⟩
    all_goals exact ⟨c _ (.inl rfl), by decide⟩
  · exact identities_of_one (h := 5) (fun k => by fin_cases k <;> rfl) rfl rfl rfl
  · exact exec_answers_next .frameStart racing

end Sys2Proof.Tests.Slice0
end

