-- ==== Sys2Proof/Proofs/CarTable.lean ====
section
/-! PROOFS. The car table's console drive and lane arm (R12, R13). -/

namespace Sys2Proof.Proofs.CarTable

open Sys2Proof Sys2Proof.Machine Host

/-! ### The commands reach their operations -/

theorem exec_drive (args : List Byte) (s : State) :
    exec (.drive args) s = s.serve (parseDrive args) fun q s => s.drive q := rfl

theorem exec_armLane (args : List Byte) (s : State) :
    exec (.armLane args) s = s.serve (parseSlot args) fun k s => s.armLane k := rfl

@[simp] theorem parseSlot_slotCode (k : Slot) : parseSlot [slotCode k] = some k :=
  slotOfByte_slotCode k

@[simp] theorem parseDrive_level (k : Slot) (level : Byte) :
    parseDrive [slotCode k, 0, level] = some ⟨k, some level.toNat⟩ := by
  simp [parseDrive, slotOfByte_slotCode]

@[simp] theorem parseDrive_release (k : Slot) (level : Byte) :
    parseDrive [slotCode k, 1, level] = some ⟨k, none⟩ := by
  simp [parseDrive, slotOfByte_slotCode]

theorem exec_drive_of_parse {args : List Byte} {q : DriveReq} {s : State} (hs : Served s)
    (hq : parseDrive args = some q) : exec (.drive args) s = .next (s.drive q) := by
  rw [exec_drive, hq, serve_some_of_served q hs]

theorem exec_armLane_slotCode {s : State} (hs : Served s) (k : Slot) :
    exec (.armLane [slotCode k]) s = .next (s.armLane k) := by
  rw [exec_armLane, parseSlot_slotCode, serve_some_of_served k hs]

/-! ### What the operations make of the record and of the state -/

/-- A record changed and handed to the Drive Unit in one event is written once. -/
theorem recompute_modifyCar (s : State) (k : Slot) (f : Car → Car) :
    (s.modifyCar k f).recompute k = { s with cars := s.cars.set k (Car.recompute s.track (f (s.car k))) } := by
  simp [State.recompute, State.modifyCar, State.setCar, State.car]

/-- The rows of R12's table for DRIVE with a level. -/
theorem car_drive_level (n : Nat) (r : Car) :
    Car.drive (some n) r = { r with
      consoleDrive := some n
      armed := if r.consoleDrive = none then false else r.armed } := by
  cases h : r.consoleDrive <;> simp [Car.drive, h]

/-- The rows of R12's table for DRIVE RELEASE. -/
theorem car_drive_release (r : Car) :
    Car.drive none r = { r with
      consoleDrive := none
      armed := if r.consoleDrive = none then r.armed else false } := by
  cases h : r.consoleDrive <;> simp [Car.drive, h]

/-- Everything a DRIVE changes (R12). -/
theorem drive_eq (s : State) (q : DriveReq) :
    s.drive q = { s with
      cars := s.cars.set q.slot (Car.recompute s.track (Car.drive q.level (s.car q.slot)))
      response := some { status := .ok, data := [] } } := by
  rw [State.drive, recompute_modifyCar, State.respond]

theorem armLane_of_present {s : State} {k : Slot} (h : (s.car k).consoleDrive ≠ none) :
    s.armLane k = { s with
      cars := s.cars.set k { s.car k with armed := !(s.car k).armed }
      response := some { status := .ok, data := [] } } := by
  obtain ⟨n, hn⟩ := Option.ne_none_iff_exists'.mp h
  simp [State.armLane, hn, State.modifyCar, State.setCar, State.respond]

theorem armLane_of_absent {s : State} {k : Slot} (h : (s.car k).consoleDrive = none) :
    s.armLane k = { s with response := some { status := .wrongState, data := [] } } := by
  simp [State.armLane, h, State.respond]

/-- Settles O14: each command reaches its operation, and the operation's effect is the table of R12 or the toggle of
R13. -/
theorem driveAndArmLane : Obligations.DriveAndArmLane := by
  intro s k level hs
  refine ⟨?level, ?release, fun hpresent => ?toggled, fun habsent => ?refused⟩
  case level => rw [exec_drive_of_parse hs (parseDrive_level k level), drive_eq, car_drive_level]
  case release => rw [exec_drive_of_parse hs (parseDrive_release k level), drive_eq, car_drive_release]
  case toggled => rw [exec_armLane_slotCode hs, armLane_of_present hpresent]
  case refused => rw [exec_armLane_slotCode hs, armLane_of_absent habsent]

end Sys2Proof.Proofs.CarTable
end

