-- ==== Sys2Proof/Proofs/Drive.lean ====
section
/-! PROOFS. The arithmetic of the handset path: the normalised throttle (R44) and the curve level (R45). -/

namespace Sys2Proof.Proofs.Drive

open Sys2Proof Sys2Proof.Machine

/-! ### The normalised throttle, row by row -/

theorem normalise_of_le {lo raw : Nat} (hi : Nat) (h : raw ≤ lo) : normalise lo hi raw = 0 :=
  if_pos h

theorem normalise_of_ge {lo hi raw : Nat} (hlt : lo < hi) (h : hi ≤ raw) : normalise lo hi raw = 255 := by
  have habove : ¬ raw ≤ lo := by omega
  rw [normalise, if_neg habove, if_pos h]

theorem normalise_of_between {lo hi raw : Nat} (hlo : lo < raw) (hhi : raw < hi) :
    normalise lo hi raw = (raw - lo) * 255 / (hi - lo) := by
  rw [normalise, if_neg (Nat.not_le.mpr hlo), if_neg (Nat.not_le.mpr hhi)]

/-- Full throttle is reached at `hi` and not below it. -/
theorem normalise_le_of_lt {lo hi raw : Nat} (h : raw < hi) : normalise lo hi raw ≤ 254 := by
  rcases Nat.lt_or_ge lo raw with hlo | hlo
  · rw [normalise_of_between hlo h]
    have hprod : (raw - lo) * 255 < (hi - lo) * 255 := by omega
    exact Nat.le_of_lt_succ (Nat.div_lt_of_lt_mul hprod)
  · rw [normalise_of_le hi hlo]
    exact Nat.zero_le _

/-! ### The step taken on a segment

`d` is the difference of the segment's two points; the step has the sign of `d` and never passes it. -/

theorem tdiv_step_of_rising {d f : Int} (hd : 0 ≤ d) (hf : 0 ≤ f) (hf32 : f ≤ 32) :
    0 ≤ Int.tdiv (d * f) 32 ∧ Int.tdiv (d * f) 32 ≤ d := by
  have hprod : 0 ≤ d * f := Int.mul_nonneg hd hf
  have hcap : d * f ≤ d * 32 := Int.mul_le_mul_of_nonneg_left hf32 hd
  rw [Int.tdiv_eq_ediv_of_nonneg hprod]
  omega

/-- Truncation is toward zero, so a falling segment is a rising one with the sign changed. -/
theorem tdiv_step_of_falling {d f : Int} (hd : d ≤ 0) (hf : 0 ≤ f) (hf32 : f ≤ 32) :
    d ≤ Int.tdiv (d * f) 32 ∧ Int.tdiv (d * f) 32 ≤ 0 := by
  obtain ⟨hpos, hcap⟩ := tdiv_step_of_rising (Int.neg_nonneg_of_nonpos hd) hf hf32
  rw [Int.neg_mul, Int.neg_tdiv] at hpos hcap
  omega

theorem segment_between (p q : Int) {f : Int} (hf : 0 ≤ f) (hf32 : f ≤ 32) :
    min p q ≤ p + Int.tdiv ((q - p) * f) 32 ∧ p + Int.tdiv ((q - p) * f) 32 ≤ max p q := by
  rcases Int.le_total p q with hrise | hfall
  · have := tdiv_step_of_rising (Int.sub_nonneg_of_le hrise) hf hf32
    omega
  · have := tdiv_step_of_falling (Int.sub_nonpos_of_le hfall) hf hf32
    omega

/-! ### The curve level -/

theorem curvePoint_of_lt (c : Curve) {i : Nat} (h : i < 9) : curvePoint c i = c.get ⟨i, h⟩ :=
  dif_pos h

/-- The formula of R45: what it gives is no less than the lower of two points, so the model's reading of it as a natural
number loses nothing. -/
theorem curveLevel_formula (c : Curve) (t : Nat) :
    (curveLevel c t : Int) = (curvePoint c (t / 32) : Int)
      + Int.tdiv (((curvePoint c (t / 32 + 1) : Int) - (curvePoint c (t / 32) : Int)) * ((t % 32 : Nat) : Int)) 32 := by
  apply Int.toNat_of_nonneg
  have hlow := (segment_between (curvePoint c (t / 32)) (curvePoint c (t / 32 + 1))
    (Int.natCast_nonneg (t % 32)) (by omega)).1
  omega

theorem curveLevel_between (c : Curve) (t : Nat) :
    min (curvePoint c (t / 32)) (curvePoint c (t / 32 + 1)) ≤ curveLevel c t
      ∧ curveLevel c t ≤ max (curvePoint c (t / 32)) (curvePoint c (t / 32 + 1)) := by
  have hseg := segment_between (curvePoint c (t / 32)) (curvePoint c (t / 32 + 1))
    (Int.natCast_nonneg (t % 32)) (by omega)
  rw [← curveLevel_formula c t] at hseg
  omega

theorem curveLevel_at_point (c : Curve) {t : Nat} (h : t % 32 = 0) : curveLevel c t = curvePoint c (t / 32) := by
  have hform := curveLevel_formula c t
  rw [h, Int.natCast_zero, Int.mul_zero, Int.zero_tdiv, Int.add_zero] at hform
  exact Int.ofNat_inj.mp hform

/-- Settles O48: the rows of R44, and R45 at the two points of the segment, which are points of the curve since `t` is at
most 255. -/
theorem throttleAndCurveArithmetic : Obligations.ThrottleAndCurveArithmetic := by
  refine ⟨fun lo hi raw hlt _ => ⟨?atLow, ?atHigh, ?between⟩, by decide, by decide, fun curve t ht => ?segment, by decide⟩
  case atLow => exact normalise_of_le hi
  case atHigh => exact normalise_of_ge hlt
  case between => exact fun hlo hhi => ⟨normalise_of_between hlo hhi, normalise_le_of_lt hhi⟩
  case segment =>
    have hp : t / 32 < 9 := by omega
    have hq : t / 32 + 1 < 9 := by omega
    intro p q
    rw [show p = curvePoint curve (t / 32) from (curvePoint_of_lt curve hp).symm,
      show q = curvePoint curve (t / 32 + 1) from (curvePoint_of_lt curve hq).symm]
    obtain ⟨hmin, hmax⟩ := curveLevel_between curve t
    exact ⟨curveLevel_formula curve t, hmin, hmax, curveLevel_at_point curve⟩

end Sys2Proof.Proofs.Drive
end

