-- ==== Sys2Proof/Proofs/TrackStates.lean ====
section
/-! PROOFS. The track state's commands: WAKE (R64). -/

namespace Sys2Proof.Proofs.TrackStates

open Sys2Proof Sys2Proof.Machine Host

/-! ### Denials where no request waits -/

theorem pendingSlots_of_none_pending {sec : Section} (h : ∀ c ∈ sec.claims, c.state ≠ .pending) :
    sec.pendingSlots = [] := by
  refine List.eq_nil_iff_forall_not_mem.mpr fun k hk => ?_
  obtain ⟨c, hc, -, hpending⟩ := pendingSlots_mem hk
  exact h c hc hpending

theorem denySection_of_noPending {s : State} (h : NoPending s) (reason : DenyReason) (a : Addr) :
    s.denySection reason a = s := by
  unfold State.denySection
  cases hsec : s.sectionAt a with
  | none => rfl
  | some sec => simp only [pendingSlots_of_none_pending (h a sec hsec), List.foldl_nil]

theorem denyForState_of_noPending {s : State} (h : NoPending s) : s.denyForState = s := by
  have hfold : allAddrs.foldl (fun s a => s.denySection .state a) s = s :=
    List.foldlRecOn (motive := (· = s)) allAddrs _ rfl fun _ hu a _ => hu ▸ denySection_of_noPending h .state a
  rw [State.denyForState, hfold, ite_self]

theorem noPending_of_quiet {s : State} (hq : StandbyQuiet s) (ht : s.track = .standby) : NoPending s := by
  intro a sec hsec c hc
  rw [(hq ht).1 a sec hsec] at hc
  exact absurd hc List.not_mem_nil

/-! ### The entry to SETTLE from STANDBY -/

/-- Nothing but the drive and the rails follows: STANDBY left no request to deny, no burst runs, and no pairing stands
outside HALT (R63, R78, R86). -/
theorem changeTrack_settle_of_quiet {s : State} (hq : StandbyQuiet s) (ht : s.track = .standby) :
    s.changeTrack .settle
      = followed (carFollows .settle) .settle s.cautionCause (settledRail s.rail s.now) s := by
  have hpending : NoPending s := noPending_of_quiet hq ht
  have hcause : causeAfterLeaving s.track s.cautionCause = s.cautionCause := by rw [ht]; rfl
  have hrail : (s.beforeDenials .settle).rail = settledRail s.rail s.now := by
    simp only [State.beforeDenials, ht, reduceCtorEq, if_false]
    rfl
  rw [changeTrack_other s .settle (by decide), denyForState_of_noPending (s := s.beforeDenials .settle) hpending,
    State.pairingFollows, if_neg (by rw [ht]; decide), beforeDenials_eq, hcause, hrail]

/-! ### WAKE, state by state -/

theorem exec_wake (args : List Byte) (s : State) :
    exec (.wake args) s = s.serve (parseNone args) fun _ s => s.wake := rfl

theorem exec_wake_of_served {s : State} (hs : Served s) : exec (.wake []) s = .next s.wake := by
  rw [exec_wake, parseNone, serve_some_of_served () hs]

theorem wake_of_standby {s : State} (ht : s.track = .standby) :
    s.wake = if s.railflt then s.answerTrack .railFault else (s.wakeUp .console).answerTrack .ok := by
  rw [State.wake, ht]

theorem wake_of_awake {s : State} (ht : s.track ≠ .standby) : s.wake = s.answerTrack .ok := by
  cases h : s.track with
  | standby => exact absurd h ht
  | settle | halt | run | caution => simp only [State.wake, h]

theorem answerTrack_eq (s : State) (status : Status) :
    s.answerTrack status = { s with response := some { status := status, data := [s.track.code] } } := rfl

/-- Settles O5: from STANDBY the change to SETTLE has the drive and the rails alone for followers, and the answer gives
the state as it then stands. -/
theorem wakeCommandOutcome : Obligations.WakeCommandOutcome := by
  intro s hs hq
  rw [exec_wake_of_served hs]
  refine ⟨fun ht hdeasserted => ?wakes, fun ht hasserted => ?railFault, fun ht => ?awake⟩
  case wakes =>
    have hcars : carFollows .settle = fun r => { r with target := 0, brakeRequest := true, output := 0 } :=
      funext fun r => carFollows_stopped .settle r rfl
    rw [wake_of_standby ht, if_neg (ne_true_of_eq_false hdeasserted), State.wakeUp, changeTrack_settle_of_quiet hq ht,
      hcars]
    rfl
  case railFault => rw [wake_of_standby ht, if_pos hasserted, answerTrack_eq, ht]; rfl
  case awake => rw [wake_of_awake ht, answerTrack_eq]

end Sys2Proof.Proofs.TrackStates
end

