-- ==== Sys2Proof/Proofs/ConsolePort.lean ====
section
/-! PROOFS. The Console Port's event flags, their enables and ATTN (R188 to R191). -/

namespace Sys2Proof.Proofs.ConsolePort

open Sys2Proof Sys2Proof.Machine

/-! ### The marks of a mask byte -/

/-- The mark that bit `i` of a mask byte carries (Table 12-5); past the eight there is none. -/
def markAt (m : EventMask) : Nat → Bool
  | 0 => m.state
  | 1 => m.link
  | 2 => m.pairing
  | 3 => m.decision
  | 4 => m.fault
  | 5 => m.node
  | 6 => m.batt
  | 7 => m.overflow
  | _ => false

/-- The sum that forms the byte is a binary numeral with the marks for digits. -/
theorem code_eq_digits (m : EventMask) :
    m.code = BitVec.ofNat 8 (Nat.bit m.state (Nat.bit m.link (Nat.bit m.pairing (Nat.bit m.decision
      (Nat.bit m.fault (Nat.bit m.node (Nat.bit m.batt (Nat.bit m.overflow 0)))))))) := by
  rw [EventMask.code, byte1]
  congr 1
  simp only [Nat.bit_val]
  omega

theorem getLsbD_code (m : EventMask) {i : Nat} (hi : i < 8) : m.code.getLsbD i = markAt m i := by
  rw [code_eq_digits, BitVec.getLsbD_ofNat, decide_eq_true hi, Bool.true_and]
  interval_cases i <;> simp only [Nat.testBit_bit_succ, Nat.testBit_bit_zero, markAt]

/-! ### The flags and ATTN -/

/-- DECISION is the one flag that is not latched: the queue gives it (R188). -/
theorem eventFlags_eq (s : State) : s.eventFlags =
    { state := s.flags.state, link := s.flags.link, pairing := s.flags.pairing
      decision := decide (s.decisions ≠ []), fault := s.flags.fault, node := s.flags.node
      batt := s.flags.batt, overflow := s.flags.overflow } := by
  have hqueue : (!s.decisions.isEmpty) = decide (s.decisions ≠ []) := by cases s.decisions <;> rfl
  rw [State.eventFlags, hqueue]

/-- R191's eight pairs of a flag and its enable, by the bit they share. -/
theorem attn_eq_any (s : State) :
    s.attn = (List.range 8).any fun i => markAt s.eventFlags i && markAt s.enables i := by
  simp [State.attn, List.range_succ, markAt, Bool.or_assoc]

theorem attn_iff_shared_bit (s : State) :
    s.attn = true ↔ ∃ i, i < 8 ∧ s.eventFlags.code.getLsbD i = true ∧ s.enables.code.getLsbD i = true := by
  simp only [attn_eq_any, List.any_eq_true, List.mem_range, Bool.and_eq_true]
  refine exists_congr fun i => and_congr_right fun hi => ?_
  rw [getLsbD_code _ hi, getLsbD_code _ hi]

/-! ### The two commands -/

theorem exec_ackEvents (args : List Byte) (s : State) :
    exec (.ackEvents args) s = s.serve (parseMask args) fun m s => s.ackEvents m := rfl

theorem exec_setEventEnable (args : List Byte) (s : State) :
    exec (.setEventEnable args) s = s.serve (parseMask args) fun m s => s.setEventEnable m := rfl

@[simp] theorem parseMask_byte (b : Byte) : parseMask [b] = some (EventMask.ofByte b) := rfl

theorem exec_ackEvents_of_served {s : State} (hs : Served s) (b : Byte) :
    exec (.ackEvents [b]) s = .next (s.ackEvents (EventMask.ofByte b)) := by
  rw [exec_ackEvents, parseMask_byte, serve_some_of_served _ hs]

theorem exec_setEventEnable_of_served {s : State} (hs : Served s) (b : Byte) :
    exec (.setEventEnable [b]) s = .next (s.setEventEnable (EventMask.ofByte b)) := by
  rw [exec_setEventEnable, parseMask_byte, serve_some_of_served _ hs]

theorem code_eq_marks (m : EventMask) : m.code = Layout.marks m := rfl

/-- What ACK_EVENTS changes; the answer is made of the flags before the clearing (R189). -/
theorem ackEvents_eq (s : State) (m : EventMask) :
    s.ackEvents m = { s with
      flags := s.flags.ack m
      response := some { status := .ok, data := [Layout.marks s.eventFlags] } } := by
  rw [State.ackEvents, State.respond, code_eq_marks]

/-- What SET_EVENT_ENABLE changes: the byte it answers with spells the enables it set, and is the byte it was given. -/
theorem setEventEnable_ofByte (s : State) (b : Byte) :
    s.setEventEnable (EventMask.ofByte b) = { s with
      enables := EventMask.ofByte b
      response := some { status := .ok, data := [b] } } := by
  rw [State.setEventEnable, State.respond, eventMask_ofByte_code]

/-- Settles O25: each command reaches its operation, whose whole effect is spelled above; ATTN's eight pairs are the
bits that the two bytes share. -/
theorem eventFlagsEnablesAndAttn : Obligations.EventFlagsEnablesAndAttn := by
  intro s
  refine ⟨fun b hs => ?ack, fun b hs => ?enable, eventFlags_eq s, attn_iff_shared_bit s⟩
  case ack => rw [exec_ackEvents_of_served hs, ackEvents_eq, LatchedFlags.ack, EventMask.ofByte]
  case enable => rw [exec_setEventEnable_of_served hs, setEventEnable_ofByte, EventMask.ofByte]

end Sys2Proof.Proofs.ConsolePort
end

section
/-! PROOFS. What every step keeps (Safety.lean, "Invariants"): what each invariant reads, and the relation that gathers
what one operation keeps. -/

namespace Sys2Proof.Proofs.Kept

open Sys2Proof Sys2Proof.Machine Host

/-! ### The relation -/

/-- What an operation from s to t keeps. The auto-caution requests wait within an event, so the queues are taken without
them. -/
structure Keeps (s t : State) : Prop where
  followers : TrackFollowers s → TrackFollowers t
  queues : QueuesBounded (handed s []) → QueuesBounded (handed t [])
  registry : RegistryKept s → RegistryKept t
  quiet : StandbyQuiet s → StandbyQuiet t
  cars : CarsKept s → CarsKept t
  identities : IdentitiesDistinct s → IdentitiesDistinct t

theorem Keeps.refl (s : State) : Keeps s s := ⟨id, id, id, id, id, id⟩

theorem Keeps.trans {s t u : State} (h : Keeps s t) (g : Keeps t u) : Keeps s u :=
  ⟨g.followers ∘ h.followers, g.queues ∘ h.queues, g.registry ∘ h.registry, g.quiet ∘ h.quiet, g.cars ∘ h.cars,
    g.identities ∘ h.identities⟩

/-- An operation apart from the Section Arbiter and the track state: it keeps what is kept, and leaves the fields that
claims and cautions read. A part not named where the structure is built reads no field that the operation changes. -/
structure Plain (s t : State) : Prop where
  sections : t.sections = s.sections := by rfl
  track : t.track = s.track := by rfl
  options : t.options = s.options := by rfl
  decisions : t.decisions = s.decisions := by rfl
  positions : t.positions = s.positions := by rfl
  requests : t.cautionRequests = s.cautionRequests := by rfl
  followers : TrackFollowers s → TrackFollowers t := by
    exact fun h => ⟨h.power, h.starts, h.counter, h.burst, h.pairing⟩
  queues : QueuesBounded (handed s []) → QueuesBounded (handed t []) := by
    exact fun h => ⟨h.unbound, h.notices, h.throws, h.decisions, h.sending, h.requests, h.writes⟩
  registry : RegistryKept s → RegistryKept t := by
    exact fun h => ⟨h.records, h.statuses, h.sectionLimit, h.padLimit⟩
  cars : CarsKept s → CarsKept t := by exact fun h k => h k
  identities : IdentitiesDistinct s → IdentitiesDistinct t := by
    exact fun h => ⟨h.bindings, h.candidate, h.list, h.unbound, h.loading⟩

theorem Plain.refl (s : State) : Plain s s := {}

theorem Plain.trans {s t u : State} (h : Plain s t) (g : Plain t u) : Plain s u where
  sections := g.sections.trans h.sections
  track := g.track.trans h.track
  options := g.options.trans h.options
  decisions := g.decisions.trans h.decisions
  positions := g.positions.trans h.positions
  requests := g.requests.trans h.requests
  followers := g.followers ∘ h.followers
  queues := g.queues ∘ h.queues
  registry := g.registry ∘ h.registry
  cars := g.cars ∘ h.cars
  identities := g.identities ∘ h.identities

theorem Plain.foldl {β : Type} {f : State → β → State} (h : ∀ s b, Plain s (f s b)) :
    ∀ (l : List β) (s : State), Plain s (l.foldl f s)
  | [], s => .refl s
  | b :: l, s => (h s b).trans (Plain.foldl h l _)

/-- STANDBY reads the track state, the claims, the decision queue and the positions alone. -/
theorem standbyQuiet_congr {s t : State} (hs : t.sections = s.sections) (ht : t.track = s.track)
    (hd : t.decisions = s.decisions) (hp : t.positions = s.positions) (h : StandbyQuiet s) : StandbyQuiet t := by
  unfold StandbyQuiet State.sectionAt State.position at h ⊢
  rw [hs, ht, hd, hp]
  exact h

theorem Plain.keeps {s t : State} (h : Plain s t) : Keeps s t :=
  ⟨h.followers, h.queues, h.registry, standbyQuiet_congr h.sections h.track h.decisions h.positions, h.cars, h.identities⟩

/-! ### Fields that no invariant reads -/

theorem respond_plain (s : State) (st : Status) (d : List Byte) : Plain s (s.respond st d) := {}

theorem raise_plain (s : State) (e : Event) : Plain s (s.raise e) := {}

theorem raiseIf_plain (s : State) (c : Bool) (e : Event) : Plain s (s.raiseIf c e) := by
  unfold State.raiseIf
  split
  · exact raise_plain s e
  · exact .refl s

theorem receiver_plain (s : State) (r : Receiver) : Plain s { s with receiver := r } := {}

/-! ### Car records -/

/-- A car record within the ranges of Table 1-1, its levels apart: what a recomputation needs to bound them. -/
structure CarRanged (r : Car) : Prop where
  inputs : r.inputs.thr ≤ 255 ∧ r.inputs.batt ≤ 7 ∧ ∀ n ∈ r.lastSeq, n ≤ 15
  curves : ∀ i : Fin 9, r.raceCurve[i] ≤ 255 ∧ r.cautionCurve[i] ≤ 255
  console : ∀ n ∈ r.consoleDrive, n ≤ 255
  calibration : r.calLo < r.calHi ∧ r.calHi ≤ 255
  limit : r.speedLimit ≤ 255
  steps : (1 ≤ r.accelStep ∧ r.accelStep ≤ 255) ∧ (1 ≤ r.decelStep ∧ r.decelStep ≤ 255)
    ∧ (1 ≤ r.fadeStep ∧ r.fadeStep ≤ 255)
  watch : (20 ≤ r.watchTimeout ∧ r.watchTimeout ≤ 2000) ∧ ∀ n ∈ r.pendingWatch, 20 ≤ n ∧ n ≤ 2000
  motion : (200 ≤ r.vtop ∧ r.vtop ≤ 9000) ∧ r.accelMargin ≤ 255 ∧ r.decelMargin ≤ 255
    ∧ (60 ≤ r.carLength ∧ r.carLength ≤ 255)
  fadeCap : r.fadeCap ≤ 255 ∧ (r.link = .fade → 0 < r.fadeCap)
  unbound : r.binding = none ↔ r.link = .none

theorem CarRanged.of_fits {r : Car} (h : CarFits r) : CarRanged r :=
  ⟨h.inputs, h.curves, h.console, h.calibration, h.limit, h.steps, h.watch, h.motion, h.fadeCap, h.unbound⟩

/-- Every row of R43 gives a target within the speed limit, and in FADE within the fade cap. -/
theorem targetFor_le (t : TrackState) (r : Car) :
    (r.targetFor t).1 ≤ r.speedLimit ∧ (r.link = .fade → r.consoleDrive = none → (r.targetFor t).1 ≤ r.fadeCap) := by
  have hpath : r.handsetTarget t ≤ r.speedLimit ∧ (r.link = .fade → r.handsetTarget t ≤ r.fadeCap) := by
    unfold Car.handsetTarget
    cases r.link <;> simp only [reduceCtorEq, false_implies, and_true, true_implies] <;> omega
  unfold Car.targetFor
  cases t <;> cases hc : r.consoleDrive <;> cases hl : r.link <;> simp [hl] at hpath ⊢ <;> (try split) <;>
    simp_all

theorem limitCut_le (r : Car) :
    r.limitCut ≤ r.speedLimit ∧ (r.link = .fade → r.consoleDrive = none → r.limitCut ≤ r.fadeCap) := by
  unfold Car.limitCut
  by_cases h : r.link = .fade ∧ r.consoleDrive = none
  · rw [if_pos h]
    omega
  · rw [if_neg h]
    exact ⟨by omega, fun h1 h2 => absurd ⟨h1, h2⟩ h⟩

/-- A recomputed record has its levels within their bounds. -/
theorem recompute_fits {r : Car} (t : TrackState) (h : CarRanged r) : CarFits (r.recompute t) where
  inputs := h.inputs
  curves := h.curves
  console := h.console
  calibration := h.calibration
  limit := h.limit
  steps := h.steps
  watch := h.watch
  motion := h.motion
  levels := ⟨(limitCut_le r).1, (targetFor_le t r).1⟩
  fading hl hc := ⟨(limitCut_le r).2 hl hc, (targetFor_le t r).2 hl hc⟩
  fadeCap := h.fadeCap
  unbound := h.unbound

/-- A record whose arm or store status alone has changed. -/
theorem fits_armed_store {r : Car} (a : Bool) (st : StoreStatus) (h : CarFits r) :
    CarFits { r with armed := a, storeStatus := st } :=
  ⟨h.inputs, h.curves, h.console, h.calibration, h.limit, h.steps, h.watch, h.motion, h.levels, h.fading, h.fadeCap,
    h.unbound⟩

/-- The watch timer runs in LIVE and FADE alone (R34). -/
def Watched (r : Car) (w : Option TrackTime) : Prop := w.isSome = true ↔ r.link = .live ∨ r.link = .fade

@[simp] theorem car_set_same (s : State) (k : Slot) (r : Car) (w : Vector (Option TrackTime) 8) :
    ({ s with cars := s.cars.set k r, watch := w } : State).car k = r := by
  simp [State.car]

theorem car_set_ne (s : State) {j k : Slot} (r : Car) (w : Vector (Option TrackTime) 8) (h : j ≠ k) :
    ({ s with cars := s.cars.set k r, watch := w } : State).car j = s.car j := by
  simp [State.car, Fin.val_ne_of_ne (Ne.symm h)]

/-- One car's record and watch timer change: the record fits, the timer agrees, the binding stands. -/
theorem car_watch_plain (s : State) (k : Slot) (r : Car) (w : Option TrackTime)
    (hf : CarFits (s.car k) → Watched (s.car k) (s.watchOf k) → CarFits r ∧ Watched r w)
    (hb : r.binding = (s.car k).binding) :
    Plain s { s with cars := s.cars.set k r, watch := s.watch.set k w } := by
  have hbind (j : Slot) : (({ s with cars := s.cars.set k r, watch := s.watch.set k w } : State).car j).binding
      = (s.car j).binding := by
    by_cases hj : j = k
    · subst hj
      rw [car_set_same, hb]
    · rw [car_set_ne s r _ hj]
  exact {
    cars := by
      intro h j
      by_cases hj : j = k
      · subst hj
        rw [car_set_same]
        have := hf (h j).1 (h j).2
        simpa [Watched, State.watchOf] using this
      · rw [car_set_ne s r _ hj]
        simpa [State.watchOf, Fin.val_ne_of_ne (Ne.symm hj)] using h j
    identities := by
      intro h
      refine ⟨?_, ?_, h.list, ?_, ?_⟩
      · intro i j x hi hj
        rw [hbind] at hi hj
        exact h.bindings i j x hi hj
      · intro x hx
        refine ⟨(h.candidate x hx).1, fun j hj => (h.candidate x hx).2 j ?_⟩
        rwa [hbind] at hj
      · intro e he j
        rw [hbind]
        exact h.unbound e he j
      · intro hl
        obtain ⟨h1, h2, h3⟩ := h.loading hl
        exact ⟨h1, h2, fun j => by rw [hbind]; exact h3 j⟩ }

/-- A timer set to what it holds is not changed. -/
theorem watch_set_self (s : State) (k : Slot) : s.watch.set k (s.watchOf k) = s.watch := Vector.set_getElem_self ..

/-- One car's record changes, its link and binding standing. -/
theorem car_plain (s : State) (k : Slot) (r : Car) (hf : CarFits (s.car k) → CarFits r)
    (hl : r.link = (s.car k).link) (hb : r.binding = (s.car k).binding) :
    Plain s { s with cars := s.cars.set k r } := by
  have h := car_watch_plain s k r (s.watchOf k) (fun h1 h2 => ⟨hf h1, by unfold Watched at h2 ⊢; rwa [hl]⟩) hb
  rwa [watch_set_self] at h

/-- Every car's record changes, links and bindings standing. -/
theorem mapCars_plain (s : State) (f : Car → Car) (hf : ∀ r, CarFits r → CarFits (f r))
    (hl : ∀ r, (f r).link = r.link) (hb : ∀ r, (f r).binding = r.binding) : Plain s (s.mapCars f) := by
  have hcar (k : Slot) : (s.mapCars f).car k = f (s.car k) := by simp [State.car]
  exact {
    cars := by
      intro h k
      rw [hcar, hl]
      exact ⟨hf _ (h k).1, (h k).2⟩
    identities := by
      intro h
      refine ⟨?_, ?_, h.list, ?_, ?_⟩
      · intro i j x hi hj
        rw [hcar, hb] at hi hj
        exact h.bindings i j x hi hj
      · intro x hx
        refine ⟨(h.candidate x hx).1, fun j hj => (h.candidate x hx).2 j ?_⟩
        rwa [hcar, hb] at hj
      · intro e he j
        rw [hcar, hb]
        exact h.unbound e he j
      · intro hl
        obtain ⟨h1, h2, h3⟩ := h.loading hl
        exact ⟨h1, h2, fun j => by rw [hcar, hb]; exact h3 j⟩ }

end Sys2Proof.Proofs.Kept
end

section
/-! PROOFS. What the operations of the Car Table, the Binding Store and the Pairing Controller keep. -/

namespace Sys2Proof.Proofs.Kept

open Sys2Proof Sys2Proof.Machine Host

/-! ### Car commands (R8, R12, R13, R16, R17) -/

theorem clamp_le {lo hi : Nat} (h : lo ≤ hi) (v : Nat) : clamp lo hi v ≤ hi := (clamp_mem h v).2

theorem setParam_mem {lo hi old : Nat} (v : Option Nat) (h : lo ≤ hi) (ho : lo ≤ old ∧ old ≤ hi) :
    lo ≤ setParam lo hi v old ∧ setParam lo hi v old ≤ hi := by
  cases v with
  | none => exact ho
  | some n => exact clamp_mem h n

theorem setParam_le {hi old : Nat} (v : Option Nat) (ho : old ≤ hi) : setParam 0 hi v old ≤ hi :=
  (setParam_mem v (Nat.zero_le hi) ⟨Nat.zero_le old, ho⟩).2

theorem byte_le (b : Byte) : b.toNat ≤ 255 := Nat.le_of_lt_succ b.isLt

theorem given_le {marks i v n : Nat} (hv : v ≤ 255) (h : n ∈ given marks i v) : n ≤ 255 := by
  unfold given at h
  split at h
  · obtain rfl := Option.mem_some_iff.mp h
    exact hv
  · exact absurd h (Option.not_mem_none n)

/-- The calibration read from a byte is within a byte. -/
theorem parseCar_calHi_le {args : List Byte} {q : CarReq} (h : parseCar args = some q) : ∀ n ∈ q.calHi, n ≤ 255 := by
  unfold parseCar at h
  split at h
  · simp only at h
    split at h
    · split at h
      · obtain rfl := Option.some.inj h
        exact fun n hn => given_le (byte_le _) hn
      · exact nomatch h
    · exact nomatch h
  · exact nomatch h

/-- A SET_CAR leaves every parameter in its range (R16). -/
theorem setCar_ranged {q : CarReq} {r : Car} (hq : ∀ n ∈ q.calHi, n ≤ 255) (h : CarRanged r) : CarRanged (q.apply r) where
  inputs := h.inputs
  curves := h.curves
  console := h.console
  calibration := by
    have hhi : q.calHi.getD r.calHi ≤ 255 := by
      cases hc : q.calHi with
      | none => exact h.calibration.2
      | some n => exact hq n hc
    show q.newLo r < q.newHi r ∧ q.newHi r ≤ 255
    unfold CarReq.newHi CarReq.newLo
    omega
  limit := setParam_le _ h.limit
  steps := ⟨setParam_mem _ (by decide) h.steps.1, setParam_mem _ (by decide) h.steps.2.1,
    setParam_mem _ (by decide) h.steps.2.2⟩
  watch := h.watch
  motion := ⟨setParam_mem _ (by decide) h.motion.1, setParam_le _ h.motion.2.1, setParam_le _ h.motion.2.2.1,
    setParam_mem _ (by decide) h.motion.2.2.2⟩
  fadeCap := h.fadeCap
  unbound := h.unbound

/-- A record changed by f and recomputed. -/
theorem recomputed_plain (s : State) (k : Slot) (f : Car → Car) (hf : CarFits (s.car k) → CarRanged (f (s.car k)))
    (hl : (f (s.car k)).link = (s.car k).link) (hb : (f (s.car k)).binding = (s.car k).binding) :
    Plain s ((s.modifyCar k f).recompute k) := by
  rw [CarTable.recompute_modifyCar]
  exact car_plain s k _ (fun h => recompute_fits _ (hf h)) hl hb

theorem setCarParams_plain (s : State) (q : CarReq) (hq : ∀ n ∈ q.calHi, n ≤ 255) : Plain s (s.setCarParams q) := by
  unfold State.setCarParams
  refine Plain.trans ?_ (respond_plain _ _ _)
  by_cases hd : q.drives = true
  · rw [if_pos hd]
    exact recomputed_plain s q.slot q.apply (fun h => setCar_ranged hq (.of_fits h)) rfl rfl
  · rw [if_neg hd]
    refine car_plain s q.slot _ (fun h => ?_) rfl rfl
    have hlim : (q.apply (s.car q.slot)).speedLimit = (s.car q.slot).speedLimit := by
      have : q.speedLimit = none := by
        unfold CarReq.drives at hd
        cases hs : q.speedLimit <;> simp [hs] at hd ⊢
      show setParam 0 255 q.speedLimit _ = _
      rw [this]
      rfl
    have hr := setCar_ranged hq (.of_fits h)
    exact ⟨hr.inputs, hr.curves, hr.console, hr.calibration, hr.limit, hr.steps, hr.watch, hr.motion,
      by rw [hlim]; exact h.levels, h.fading, hr.fadeCap, hr.unbound⟩

theorem parseCurve_points_le {args : List Byte} {q : CurveReq} (h : parseCurve args = some q) (i : Fin 9) :
    q.points[i] ≤ 255 := by
  unfold parseCurve at h
  split at h
  · split at h
    · obtain rfl := Option.some.inj h
      fin_cases i <;> exact byte_le _
    · exact nomatch h
  · exact nomatch h

theorem setCurve_plain (s : State) (q : CurveReq) (hq : ∀ i : Fin 9, q.points[i] ≤ 255) : Plain s (s.setCurve q) := by
  refine Plain.trans (recomputed_plain s q.slot (fun r => match q.set with
    | .race => { r with raceCurve := q.points }
    | .caution => { r with cautionCurve := q.points }) (fun h => ?_) ?_ ?_) (respond_plain _ .ok [])
  · cases q.set with
    | race => exact { CarRanged.of_fits h with curves := fun i => ⟨hq i, (h.curves i).2⟩ }
    | caution => exact { CarRanged.of_fits h with curves := fun i => ⟨(h.curves i).1, hq i⟩ }
  · cases q.set <;> rfl
  · cases q.set <;> rfl

/-- A watch timeout set or left pending within 20..2000 ms (R8). -/
theorem setWatchTimeout_fits {r : Car} {ms : Nat} (hms : 20 ≤ ms ∧ ms ≤ 2000) (h : CarFits r) :
    CarFits (r.setWatchTimeout ms) := by
  have now : CarFits { r with watchTimeout := ms, pendingWatch := none } :=
    { h with watch := ⟨hms, fun n hn => absurd hn (Option.not_mem_none n)⟩ }
  have later : CarFits { r with pendingWatch := some ms } :=
    { h with watch := ⟨h.watch.1, fun n hn => Option.mem_some_iff.mp hn ▸ hms⟩ }
  unfold Car.setWatchTimeout
  split
  · exact now
  · exact now
  · exact later

theorem setWatchTimeout_plain (s : State) (q : WatchReq) : Plain s (s.setWatchTimeout q) := by
  have kept (ms : Nat) : ((s.car q.slot).setWatchTimeout ms).link = (s.car q.slot).link
      ∧ ((s.car q.slot).setWatchTimeout ms).binding = (s.car q.slot).binding := by
    unfold Car.setWatchTimeout
    split <;> exact ⟨rfl, rfl⟩
  exact (car_plain s q.slot _ (setWatchTimeout_fits (clamp_mem (by decide) q.ms)) (kept _).1 (kept _).2).trans
    (respond_plain _ _ _)

theorem parseDrive_level_le {args : List Byte} {q : DriveReq} (h : parseDrive args = some q) : ∀ n ∈ q.level, n ≤ 255 := by
  unfold parseDrive at h
  split at h
  · split at h
    · obtain rfl := Option.some.inj h
      exact fun n hn => Option.mem_some_iff.mp hn ▸ byte_le _
    · obtain rfl := Option.some.inj h
      exact fun n hn => absurd hn (Option.not_mem_none n)
    · exact nomatch h
  · exact nomatch h

theorem drive_plain (s : State) (q : DriveReq) (hq : ∀ n ∈ q.level, n ≤ 255) : Plain s (s.drive q) :=
  (recomputed_plain s q.slot (Car.drive q.level) (fun h => { CarRanged.of_fits h with console := hq }) rfl rfl).trans
    (respond_plain _ _ _)

theorem armed_plain (s : State) (k : Slot) (a : Bool) :
    Plain s (s.setCar k { s.car k with armed := a }) :=
  car_plain s k _ (fun h => fits_armed_store a (s.car k).storeStatus h) rfl rfl

theorem armLane_plain (s : State) (k : Slot) : Plain s (s.armLane k) := by
  unfold State.armLane
  split
  · exact (armed_plain s k _).trans (respond_plain _ _ _)
  · exact respond_plain _ _ _

/-! ### The Binding Store (R173 to R176) -/

theorem setStoreStatus_plain (s : State) (k : Slot) (st : StoreStatus) : Plain s (s.setStoreStatus k st) :=
  car_plain s k _ (fun h => fits_armed_store (s.car k).armed st h) rfl rfl

theorem beginWrite_store (s : State) :
    s.beginWrite = { s with store := s.beginWrite.store } ∧ s.beginWrite.store.load = s.store.load := by
  unfold State.beginWrite
  split <;> exact ⟨rfl, rfl⟩

/-- The dirty set, the records and the write in flight change, and the next write begins: no slot is left waiting without
cause, whatever waited before. -/
theorem storeWrites_plain (s : State) (st : Store) (hl : st.load = s.store.load) :
    Plain s ({ s with store := st } : State).beginWrite := by
  obtain ⟨hframe, hload⟩ := beginWrite_store { s with store := st }
  have hwrites := beginWrite_leaves_none_waiting { s with store := st }
  generalize ({ s with store := st } : State).beginWrite = u at hframe hload hwrites
  rw [hframe]
  exact {
    queues := fun h => ⟨h.unbound, h.notices, h.throws, h.decisions, h.sending, h.requests, hwrites⟩
    identities := fun h => ⟨h.bindings, h.candidate, h.list, h.unbound, fun g => h.loading (by rw [← hl, ← hload]; exact g)⟩ }

theorem requestWrite_plain (s : State) (k : Slot) : Plain s (s.requestWrite k) :=
  (setStoreStatus_plain s k .pending).trans (storeWrites_plain _ _ rfl)

theorem completeWrite_plain (s : State) (w : StoreWrite) (ok : Bool) : Plain s (s.completeWrite w ok) := by
  let written : State := { s with result := s.result.complete w.slot ok s.store.dirty[w.slot] }
  let marked := written.setStoreStatus w.slot (completionStatus ok s.store.dirty[w.slot])
  have hmarked : Plain s (marked.raiseIf (!ok) .fault) :=
    (show Plain s written from {}).trans ((setStoreStatus_plain _ w.slot _).trans (raiseIf_plain _ _ _))
  have hwhole : s.completeWrite w ok
      = ({ marked.raiseIf (!ok) .fault with store := s.store.complete w ok } : State).beginWrite := by
    cases ok <;> rfl
  rw [hwhole]
  exact hmarked.trans (storeWrites_plain _ _ (by cases ok <;> rfl))

/-! ### Changes of binding (R3, R32) -/

theorem rebind_ranged {r : Car} (b : Option Hid) (h : CarFits r) : CarRanged (Car.rebind b r) where
  inputs := ⟨Nat.zero_le _, Nat.le_refl 7, fun n hn => absurd hn (Option.not_mem_none n)⟩
  curves := h.curves
  console := h.console
  calibration := h.calibration
  limit := h.limit
  steps := h.steps
  watch := by
    refine ⟨?_, fun n hn => absurd hn (Option.not_mem_none n)⟩
    show 20 ≤ r.pendingWatch.getD r.watchTimeout ∧ r.pendingWatch.getD r.watchTimeout ≤ 2000
    cases hp : r.pendingWatch with
    | none => exact h.watch.1
    | some n => exact h.watch.2 n hp
  motion := h.motion
  fadeCap := ⟨Nat.le_refl 255, fun _ => Nat.succ_pos 254⟩
  unbound := by cases b <;> simp [Car.rebind, quietLink]

theorem rebind_watched (t : TrackState) (b : Option Hid) (r : Car) :
    Watched (Car.recompute t (Car.rebind b r)) none := by
  cases b <;> simp [Watched, Car.recompute, Car.rebind, quietLink]

theorem leaveUnbound_sublist (l : List UnboundEntry) (b : Option Hid) : (leaveUnbound l b).Sublist l := by
  cases b with
  | none => exact List.Sublist.refl l
  | some h => exact List.filter_sublist

theorem changeBinding_car (s : State) (k : Slot) (b : Option Hid) :
    (s.changeBinding k b).car k = Car.recompute s.track (Car.rebind b (s.car k)) := by
  rw [changeBinding_eq]
  simp [State.car]

theorem changeBinding_car_ne (s : State) {j k : Slot} (b : Option Hid) (h : j ≠ k) :
    (s.changeBinding k b).car j = s.car j := by
  rw [changeBinding_eq]
  simp [State.car, Fin.val_ne_of_ne (Ne.symm h)]

theorem changeBinding_binding (s : State) (j k : Slot) (b : Option Hid) :
    ((s.changeBinding k b).car j).binding = if j = k then b else (s.car j).binding := by
  by_cases h : j = k
  · subst h
    rw [changeBinding_car, if_pos rfl]
    rfl
  · rw [changeBinding_car_ne s b h, if_neg h]

/-- What a change of binding keeps beside the identities. -/
theorem changeBinding_cars (s : State) (k : Slot) (b : Option Hid) (h : CarsKept s) : CarsKept (s.changeBinding k b) := by
  intro j
  have hw : (s.changeBinding k b).watch = s.watch.set k none := by rw [changeBinding_eq]
  by_cases hj : j = k
  · subst hj
    rw [changeBinding_car]
    refine ⟨recompute_fits _ (rebind_ranged b (h j).1), ?_⟩
    have := rebind_watched s.track b (s.car j)
    simpa [State.watchOf, hw, Watched] using this
  · rw [changeBinding_car_ne s b hj]
    simpa [State.watchOf, hw, Fin.val_ne_of_ne (Ne.symm hj)] using h j

/-- A binding that no identity conflict forbids: h unbound elsewhere, the load done, no other candidate. -/
theorem changeBinding_plain (s : State) (k : Slot) (b : Option Hid)
    (hb : IdentitiesDistinct s → ∀ h ∈ b, s.store.load ≠ .loading
      ∧ (∀ j, (s.car j).binding = some h → j = k) ∧ (h ∈ s.pairing.candidate → s.pairing.slot = some k)) :
    Plain s (s.changeBinding k b) := by
  have hid : IdentitiesDistinct s → IdentitiesDistinct (s.changeBinding k b) := by
    intro h
    have hbind := fun j => changeBinding_binding s j k b
    have hp : (s.changeBinding k b).pairing = s.pairing := by rw [changeBinding_eq]
    have hu : (s.changeBinding k b).unbound = leaveUnbound s.unbound b := by rw [changeBinding_eq]
    have hst : (s.changeBinding k b).store = s.store ∧ (s.changeBinding k b).served = s.served := by
      rw [changeBinding_eq]
      exact ⟨rfl, rfl⟩
    refine ⟨?_, ?_, ?_, ?_, ?_⟩
    · intro i j x hi hj
      rw [hbind] at hi hj
      split at hi <;> split at hj
      · next hik hjk => exact hik.trans hjk.symm
      · next hik hjk => exact absurd ((hb h x hi).2.1 j hj) hjk
      · next hik hjk => exact absurd ((hb h x hj).2.1 i hi) hik
      · exact h.bindings i j x hi hj
    · intro x hx
      rw [hp] at hx ⊢
      refine ⟨(h.candidate x hx).1, fun j hj => ?_⟩
      rw [hbind] at hj
      by_cases hjk : j = k
      · rw [if_pos hjk] at hj
        rw [hjk]
        exact (hb h x hj).2.2 hx
      · rw [if_neg hjk] at hj
        exact (h.candidate x hx).2 j hj
    · rw [hu]
      exact ((leaveUnbound_sublist _ _).map _).nodup h.list
    · intro e he j
      rw [hu] at he
      rw [hbind]
      by_cases hjk : j = k
      · rw [if_pos hjk]
        rintro rfl
        simp [leaveUnbound] at he
      · rw [if_neg hjk]
        exact h.unbound e ((leaveUnbound_sublist _ _).subset he) j
    · intro hl
      rw [hst.1] at hl
      obtain ⟨h1, h2, h3⟩ := h.loading hl
      refine ⟨by rw [hst.2]; exact h1, by rw [hp]; exact h2, fun j => ?_⟩
      rw [hbind]
      by_cases hjk : j = k
      · rw [if_pos hjk]
        cases b with
        | none => rfl
        | some x => exact absurd hl (hb h x rfl).1
      · rw [if_neg hjk]
        exact h3 j
  have hcars := changeBinding_cars s k b
  rw [changeBinding_eq] at hid hcars ⊢
  exact {
    cars := hcars
    identities := hid
    queues := fun h => ⟨le_trans (leaveUnbound_sublist _ _).length_le h.unbound, h.notices, h.throws, h.decisions, h.sending,
      h.requests, h.writes⟩ }

theorem unbinding_plain (s : State) (k : Slot) : Plain s (s.changeBinding k none) :=
  changeBinding_plain s k none fun _ h hh => absurd hh (Option.not_mem_none h)

theorem unbind_plain (s : State) (k : Slot) : Plain s (s.unbind k) :=
  ((unbinding_plain s k).trans (requestWrite_plain _ k)).trans (respond_plain _ _ _)

end Sys2Proof.Proofs.Kept
end

section
/-! PROOFS. What the operations of the Pairing Controller, the pad burst and the Handset Receiver keep. -/

namespace Sys2Proof.Proofs.Kept

open Sys2Proof Sys2Proof.Machine Host

/-! ### The pad burst and the notices (R38, R87, R89) -/

/-- Rail power, frame starts, settle counter and burst agree with the track state. -/
structure RailAgrees (r : Rail) (t : TrackState) : Prop where
  power : r.power = true ↔ t ≠ .standby
  starts : r.nextStart.isSome = r.power
  counter : t ≠ .settle → r.settleCounter = 0
  burst : r.burst = .active → t = .halt

theorem trackFollowers_iff (s : State) :
    TrackFollowers s ↔ RailAgrees s.rail s.track ∧ (s.pairing.state ≠ .idle → s.track = .halt) :=
  ⟨fun h => ⟨⟨h.power, h.starts, h.counter, h.burst⟩, h.pairing⟩,
    fun h => ⟨h.1.power, h.1.starts, h.1.counter, h.1.burst, h.2⟩⟩

theorem rail_plain (s : State) (r : Rail) (h : RailAgrees s.rail s.track → RailAgrees r s.track) :
    Plain s { s with rail := r } where
  followers hf := by
    obtain ⟨h1, h2⟩ := (trackFollowers_iff s).mp hf
    exact (trackFollowers_iff _).mpr ⟨h h1, h2⟩

theorem burstIdle_agrees {r : Rail} {t : TrackState} (h : RailAgrees r t) : RailAgrees r.burstIdle t :=
  ⟨h.power, h.starts, h.counter, fun hb => nomatch hb⟩

theorem stopBurst_agrees {s : State} {t : TrackState} (h : RailAgrees s.rail t) : RailAgrees s.stopBurst.rail t := by
  rw [stopBurst_eq]
  show RailAgrees (if s.rail.burst = .active then s.rail.burstIdle else s.rail) t
  split
  · exact burstIdle_agrees h
  · exact h

theorem stopBurst_plain (s : State) : Plain s s.stopBurst := by
  have h : s.stopBurst = { s with rail := s.stopBurst.rail } := by rw [stopBurst_eq]
  rw [h]
  exact rail_plain s _ stopBurst_agrees

theorem requestBurst_plain (s : State) (k : Slot) : Plain s (s.requestBurst k) := by
  unfold State.requestBurst
  split
  · next ht => exact rail_plain s _ fun h => ⟨h.power, h.starts, h.counter, fun _ => ht⟩
  · exact .refl s

theorem notify_plain (s : State) (h : Hid) (k : NoticeKind) : Plain s (s.notify h k) := by
  unfold State.notify
  split
  · next hlt =>
    exact { queues := fun q => ⟨q.unbound, by
      show (s.notices ++ [_]).length ≤ 4
      rw [List.length_append]
      exact hlt, q.throws, q.decisions, q.sending, q.requests, q.writes⟩ }
  · exact .refl s

/-! ### The pairing in progress (chapter 10) -/

/-- A pairing that goes on: its candidate stands, and it is neither idle nor in CONFIRM before. -/
theorem pairing_plain (s : State) (p : Pairing) (hs : s.pairing.state ≠ .idle) (hc : s.pairing.state ≠ .confirm)
    (hp : p.candidate = s.pairing.candidate) : Plain s { s with pairing := p } where
  followers h := ⟨h.power, h.starts, h.counter, h.burst, fun _ => h.pairing hs⟩
  identities h := ⟨h.bindings, fun x hx => absurd (h.candidate x (hp ▸ hx)).1 hc, h.list, h.unbound,
    fun hl => absurd (h.loading hl).2.1 hs⟩

/-- A pairing whose counter or expiry alone changes. -/
theorem pairing_same_plain (s : State) (p : Pairing) (h1 : p.state = s.pairing.state) (h2 : p.slot = s.pairing.slot)
    (h3 : p.candidate = s.pairing.candidate) : Plain s { s with pairing := p } where
  followers h := ⟨h.power, h.starts, h.counter, h.burst, fun g => h.pairing (h1 ▸ g)⟩
  identities h := ⟨h.bindings, fun x hx => by
      show p.state = .confirm ∧ ∀ j, (s.car j).binding = some x → p.slot = some j
      rw [h1, h2]
      exact h.candidate x (h3 ▸ hx), h.list, h.unbound, fun hl => by
      obtain ⟨g1, g2, g3⟩ := h.loading hl
      exact ⟨g1, h1.trans g2, g3⟩⟩

theorem noticesAfter_length (s : State) (o : PairingOutcome) (h : s.notices.length ≤ 4) : (noticesAfter s o).length ≤ 4 := by
  unfold noticesAfter
  split
  · split
    · next hr =>
      rw [List.length_append]
      exact hr.2
    · exact h
  · exact h

/-- An ending leaves no pairing, no burst of PROGRAMMING and no more notices than the queue holds. -/
theorem endPairing_plain (s : State) (o : PairingOutcome) : Plain s (s.endPairing o) := by
  rw [endPairing_eq]
  exact {
    followers := fun h => (trackFollowers_iff _).mpr ⟨by
      have := ((trackFollowers_iff s).mp h).1
      show RailAgrees (if s.pairing.state = .programming then s.stopBurst.rail else s.rail) s.track
      split
      · exact stopBurst_agrees this
      · exact this, fun g => absurd rfl g⟩
    queues := fun h => ⟨h.unbound, noticesAfter_length s o h.notices, h.throws, h.decisions, h.sending, h.requests,
      h.writes⟩
    identities := fun h => ⟨h.bindings, fun x hx => absurd hx (Option.not_mem_none x), h.list, h.unbound, fun hl => by
      obtain ⟨g1, -, g3⟩ := h.loading hl
      exact ⟨g1, rfl, g3⟩⟩ }

theorem program_plain (s : State) (k : Slot) (n : Nat) (hs : s.pairing.state ≠ .idle) (hc : s.pairing.state ≠ .confirm) :
    Plain s (s.program k n) := by
  unfold State.program
  refine Plain.trans ?_ (requestBurst_plain _ k)
  exact pairing_plain s _ hs hc rfl

theorem awaitCarAgain_plain (s : State) (hs : s.pairing.state ≠ .idle) (hc : s.pairing.state ≠ .confirm) :
    Plain s s.awaitCarAgain := pairing_plain s _ hs hc rfl

theorem failedAttempt_plain (s : State) (hs : s.pairing.state ≠ .idle) (hc : s.pairing.state ≠ .confirm) :
    Plain s s.failedAttempt := by
  unfold State.failedAttempt
  split
  · split
    · exact program_plain s _ _ hs hc
    · exact endPairing_plain s _
  · exact endPairing_plain s _

theorem stopBurst_pairing (s : State) : s.stopBurst.pairing = s.pairing := by rw [stopBurst_eq]

theorem padReport_plain (s : State) (occ : Occupancy) (id : Option Slot) : Plain s (s.padReport occ id) := by
  unfold State.padReport
  cases hst : s.pairing.state with
  | idle | awaitHandset | confirm => exact .refl s
  | awaitCar =>
    cases occ with
    | empty | many => exact .refl s
    | one =>
      cases s.chooseSlot with
      | none => exact endPairing_plain s _
      | some k => exact program_plain s k 1 (by rw [hst]; decide) (by rw [hst]; decide)
  | programming =>
    cases occ with
    | one | many => exact .refl s
    | empty =>
      exact (stopBurst_plain s).trans (awaitCarAgain_plain _ (by rw [stopBurst_pairing, hst]; decide)
        (by rw [stopBurst_pairing, hst]; decide))
  | verify =>
    have hs : s.pairing.state ≠ .idle := by rw [hst]; decide
    have hc : s.pairing.state ≠ .confirm := by rw [hst]; decide
    cases occ with
    | empty => exact awaitCarAgain_plain s hs hc
    | many => exact failedAttempt_plain s hs hc
    | one =>
      dsimp only
      split
      · exact pairing_plain s _ hs hc rfl
      · exact failedAttempt_plain s hs hc

theorem padStatus_plain (s : State) (role : Role) (old new : NodeStatus) : Plain s (s.padStatus role old new) := by
  unfold State.padStatus
  split
  · exact endPairing_plain s _
  · exact .refl s

theorem burstCompleted_plain (s : State) (k : Option Slot) : Plain s (s.burstCompleted k) := by
  unfold State.burstCompleted
  split
  · next h => exact pairing_plain s _ (by rw [h.1]; decide) (by rw [h.1]; decide) rfl
  · exact .refl s

theorem pairingLeavesHalt_plain (s : State) : Plain s s.pairingLeavesHalt := by
  unfold State.pairingLeavesHalt
  split
  · exact .refl s
  · exact endPairing_plain s _

theorem countIgnored_plain (s : State) : Plain s s.countIgnored := pairing_same_plain s _ rfl rfl rfl

/-- The owner of an identity, as the Handset Receiver hands it with an offer. -/
def OwnedBy (s : State) (hid : Hid) (owner : Option Slot) : Prop := ∀ j, (s.car j).binding = some hid → owner = some j

theorem bindOffer_plain (s : State) (hid : Hid) (owner : Option Slot) (ho : IdentitiesDistinct s → OwnedBy s hid owner) :
    Plain s (s.bindOffer hid owner) := by
  unfold State.bindOffer
  cases hst : s.pairing.state with
  | idle | awaitCar | programming | verify => exact .refl s
  | awaitHandset =>
    dsimp only
    split
    · next he =>
      refine Plain.trans ?_ (notify_plain _ hid .candidate)
      exact {
        followers := fun h => ⟨h.power, h.starts, h.counter, h.burst, fun _ => h.pairing (by rw [hst]; decide)⟩
        identities := fun h => ⟨h.bindings, fun x hx => by
            obtain rfl := Option.mem_some_iff.mp hx
            refine ⟨rfl, fun j hj => ?_⟩
            have := ho h j hj
            subst this
            exact of_decide_eq_true he, h.list, h.unbound, fun hl => by
            have := (h.loading hl).2.1
            rw [hst] at this
            exact nomatch this⟩ }
    · exact countIgnored_plain s
  | confirm =>
    dsimp only
    split
    · exact .refl s
    · split
      · split
        · exact ((endPairing_plain s _).trans (notify_plain _ _ _)).trans (notify_plain _ _ _)
        · exact (endPairing_plain s _).trans (notify_plain _ _ _)
      · exact countIgnored_plain s

/-- The commit binds the candidate, which no other slot holds (R165, R167). -/
theorem commit_plain (s : State) : Plain s s.commit := by
  unfold State.commit
  split
  · next k h hk hh =>
    refine (((changeBinding_plain s k (some h) fun hi x hx => ?_).trans (requestWrite_plain _ k)).trans
      (endPairing_plain _ _)).trans (notify_plain _ _ _)
    obtain rfl := Option.mem_some_iff.mp hx
    obtain ⟨hconfirm, hslot⟩ := hi.candidate h hh
    refine ⟨fun hl => ?_, fun j hj => ?_, fun _ => hk⟩
    · have := (hi.loading hl).2.1
      rw [hconfirm] at this
      exact nomatch this
    · exact (Option.some.inj (hk.symm.trans (hslot j hj))).symm
  · exact .refl s

theorem wipe_plain (s : State) : Plain s s.wipe := by
  unfold State.wipe
  refine Plain.trans (t := if s.pairing.state = .idle then s else s.endPairing .aborted) ?_
    ((Plain.foldl unbinding_plain allSlots _).trans (Plain.foldl requestWrite_plain allSlots _))
  split
  · exact .refl s
  · exact endPairing_plain s _

/-- A pairing opened in HALT while the console is served (R160). -/
theorem openPairing_plain (s : State) (mode : PairingMode) (hs : s.served = true) : Plain s (s.openPairing mode) := by
  unfold State.openPairing
  split
  · exact respond_plain _ _ _
  · split
    · exact respond_plain _ _ _
    · next ht =>
      split
      · exact respond_plain _ _ _
      · refine Plain.trans ?_ (respond_plain _ _ _)
        exact {
          followers := fun h => ⟨h.power, h.starts, h.counter, h.burst, fun _ => not_not.mp ht⟩
          identities := fun h => ⟨h.bindings, fun x hx => absurd hx (Option.not_mem_none x), h.list, h.unbound,
            fun hl => absurd ((h.loading hl).1.symm.trans hs) (by decide)⟩ }

theorem closePairing_plain (s : State) : Plain s s.closePairing := by
  unfold State.closePairing
  refine Plain.trans ?_ (respond_plain _ _ _)
  split
  · exact .refl s
  · exact endPairing_plain s _

end Sys2Proof.Proofs.Kept
end

section
/-! PROOFS. What the Section Arbiter keeps: everything it can change, said once. -/

namespace Sys2Proof.Proofs.Kept

open Sys2Proof Sys2Proof.Machine Host

/-! ### The relation of the arbiter's operations -/

/-- Everything that records, denials, grants, lapses and sightings can change: arms, claims, queues and positions. -/
structure Arbitrated (s t : State) : Prop where
  frame : t = { s with
    flags := t.flags, cars := t.cars, sections := t.sections, decisions := t.decisions
    decisionOverflows := t.decisionOverflows, cautionRequests := t.cautionRequests, throws := t.throws
    positions := t.positions }
  cars : ∀ k, t.car k = { s.car k with armed := (t.car k).armed }
  sections : ∀ a, (t.sectionAt a).isSome = (s.sectionAt a).isSome
  decisions : s.decisions.length ≤ 16 → t.decisions.length ≤ 16
  throws : (s.throws.length ≤ 4 → t.throws.length ≤ 4) ∧ (s.throws ≠ [] → t.throws ≠ [])

theorem Arbitrated.refl (s : State) : Arbitrated s s := ⟨rfl, fun _ => rfl, fun _ => rfl, id, id, id⟩

theorem Arbitrated.trans {s t u : State} (h : Arbitrated s t) (g : Arbitrated t u) : Arbitrated s u where
  frame := by rw [g.frame, h.frame]
  cars k := by rw [g.cars, h.cars]
  sections a := (g.sections a).trans (h.sections a)
  decisions := g.decisions ∘ h.decisions
  throws := ⟨g.throws.1 ∘ h.throws.1, g.throws.2 ∘ h.throws.2⟩

theorem Arbitrated.foldl {β : Type} {f : State → β → State} (h : ∀ s b, Arbitrated s (f s b)) :
    ∀ (l : List β) (s : State), Arbitrated s (l.foldl f s)
  | [], s => .refl s
  | b :: l, s => (h s b).trans (Arbitrated.foldl h l _)

theorem Arbitrated.track {s t : State} (h : Arbitrated s t) : t.track = s.track := by rw [h.frame]

theorem Arbitrated.options {s t : State} (h : Arbitrated s t) : t.options = s.options := by rw [h.frame]

theorem Arbitrated.crossingAllowed {s t : State} (h : Arbitrated s t) : t.crossingAllowed = s.crossingAllowed := by
  unfold State.crossingAllowed
  rw [h.track, h.options]

/-- Outside STANDBY the arbiter keeps every invariant but that of its own claims. -/
theorem Arbitrated.keeps {s t : State} (h : Arbitrated s t) (hq : StandbyQuiet s → StandbyQuiet t) : Keeps s t := by
  have hbind (k : Slot) : (t.car k).binding = (s.car k).binding := by rw [h.cars]
  have hf := h.frame
  have hpair : t.pairing = s.pairing := by rw [hf]
  have hrail : t.rail = s.rail := by rw [hf]
  have hunb : t.unbound = s.unbound := by rw [hf]
  have hstore : t.store = s.store := by rw [hf]
  have hserved : t.served = s.served := by rw [hf]
  have hnotices : t.notices = s.notices := by rw [hf]
  have hsend : t.throwSending = s.throwSending := by rw [hf]
  have hwatch : t.watch = s.watch := by rw [hf]
  have hnode : t.node = s.node := by unfold State.node; rw [hf]
  exact {
    followers := fun g => ⟨by rw [hrail, h.track]; exact g.power, by rw [hrail]; exact g.starts,
      by rw [hrail, h.track]; exact g.counter, by rw [hrail, h.track]; exact g.burst,
      by rw [hpair, h.track]; exact g.pairing⟩
    queues := fun g => ⟨by show t.unbound.length ≤ 6; rw [hunb]; exact g.unbound,
      by show t.notices.length ≤ 4; rw [hnotices]; exact g.notices, h.throws.1 g.throws, h.decisions g.decisions,
      fun x => h.throws.2 (g.sending (hsend.symm.trans x)), rfl,
      by show t.store.inFlight = none → ∀ k : Slot, t.store.dirty[k] = false; rw [hstore]; exact g.writes⟩
    registry := fun g => ⟨fun a => by rw [h.sections, hnode]; exact g.records a, by rw [hnode]; exact g.statuses,
      by rw [hnode]; exact g.sectionLimit, by rw [hnode]; exact g.padLimit⟩
    quiet := hq
    cars := fun g k => by
      rw [h.cars k]
      refine ⟨fits_armed_store _ (s.car k).storeStatus (g k).1, ?_⟩
      unfold State.watchOf
      rw [hwatch]
      exact (g k).2
    identities := fun g => ⟨fun j k x h1 h2 => g.bindings j k x ((hbind j).symm.trans h1) ((hbind k).symm.trans h2),
      fun x hx => by
        rw [hpair] at hx ⊢
        exact ⟨(g.candidate x hx).1, fun j hj => (g.candidate x hx).2 j ((hbind j).symm.trans hj)⟩,
      by rw [hunb]; exact g.list, fun e he k => by rw [hunb] at he; rw [hbind]; exact g.unbound e he k,
      fun hl => by
        rw [hstore] at hl
        obtain ⟨g1, g2, g3⟩ := g.loading hl
        exact ⟨by rw [hserved]; exact g1, by rw [hpair]; exact g2, fun k => by rw [hbind]; exact g3 k⟩⟩ }

theorem Arbitrated.keeps_awake {s t : State} (h : Arbitrated s t) (ha : StandbyQuiet s → s.track ≠ .standby) :
    Keeps s t :=
  h.keeps fun hs ht => absurd (h.track.symm.trans ht) (ha hs)

/-! ### Records and arms -/

theorem writeDecision_arbitrated (s : State) (d : Decision) : Arbitrated s (s.writeDecision d) := by
  unfold State.writeDecision
  split
  · next hlt =>
    refine ⟨rfl, fun _ => rfl, fun _ => rfl, fun _ => ?_, id, id⟩
    show (s.decisions ++ [d]).length ≤ 16
    rw [List.length_append]
    exact hlt
  · exact ⟨rfl, fun _ => rfl, fun _ => rfl, id, id, id⟩

theorem writeRecord_arbitrated (s : State) (a : Addr) (car : CarRef) (o : DecisionOutcome) (r : Option DenyReason)
    (x : Option CarRef) (m : Bool) : Arbitrated s (s.writeRecord a car o r x m) := writeDecision_arbitrated s _

theorem requestCaution_arbitrated (s : State) (c : CautionSource) : Arbitrated s (s.requestCaution c) :=
  ⟨rfl, fun _ => rfl, fun _ => rfl, id, id, id⟩

theorem setCar_car (s : State) (j k : Slot) (r : Car) : (s.setCar k r).car j = if j = k then r else s.car j := by
  by_cases h : j = k
  · subst h
    simp [State.car]
  · simp [State.car, Fin.val_ne_of_ne (Ne.symm h), h]

theorem disarm_arbitrated (s : State) (k : Slot) : Arbitrated s (s.disarm k) := by
  refine ⟨rfl, fun j => ?_, fun _ => rfl, id, id, id⟩
  unfold State.disarm State.modifyCar
  rw [setCar_car]
  by_cases h : j = k
  · subst h
    rw [if_pos rfl]
  · rw [if_neg h]

theorem recordDenial_arbitrated (s : State) (a : Addr) (k : Slot) (r : DenyReason) (x : Option CarRef) :
    Arbitrated s (s.recordDenial a k r x) := by
  have hw := writeRecord_arbitrated s a (.slot k) .deny (some r) x false
  unfold State.recordDenial
  dsimp only
  split
  · exact hw.trans (disarm_arbitrated _ k)
  · exact hw

theorem recordLateConflict_arbitrated (s : State) (a : Addr) (c : CarRef) (g : Claim) :
    Arbitrated s (s.recordLateConflict a c g) :=
  (writeRecord_arbitrated s _ _ _ _ _ _).trans (requestCaution_arbitrated _ _)

theorem lateConflictTest_arbitrated (s : State) (a : Addr) (c : Claim) : Arbitrated s (s.lateConflictTest a c) := by
  unfold State.lateConflictTest
  split
  · exact .refl s
  · exact Arbitrated.foldl (fun s g => recordLateConflict_arbitrated s a c.car g) _ _

/-! ### Section records and positions -/

theorem setSection_sectionAt (s : State) (a b : Addr) (o : Option Section) :
    (s.setSection a o).sectionAt b = if b = a then o else s.sectionAt b := by
  by_cases h : b = a
  · subst h
    simp [State.sectionAt]
  · simp [State.sectionAt, Fin.val_ne_of_ne (Ne.symm h), h]

theorem modifySection_sectionAt (s : State) (a b : Addr) (f : Section → Section) :
    (s.modifySection a f).sectionAt b = if b = a then (s.sectionAt b).map f else s.sectionAt b := by
  unfold State.modifySection
  rw [setSection_sectionAt]
  by_cases h : b = a
  · subst h
    rfl
  · rw [if_neg h, if_neg h]

theorem setSection_arbitrated (s : State) (a : Addr) (sec sec' : Section) (h : s.sectionAt a = some sec) :
    Arbitrated s (s.setSection a (some sec')) := by
  refine ⟨rfl, fun _ => rfl, fun b => ?_, id, id, id⟩
  rw [setSection_sectionAt]
  split
  · next hb =>
    rw [hb, h]
    rfl
  · rfl

theorem modifySection_arbitrated (s : State) (a : Addr) (f : Section → Section) : Arbitrated s (s.modifySection a f) := by
  refine ⟨rfl, fun _ => rfl, fun b => ?_, id, id, id⟩
  rw [modifySection_sectionAt]
  split
  · exact Option.isSome_map
  · rfl

theorem setPosition_arbitrated (s : State) (k : Slot) (p : Position) : Arbitrated s (s.setPosition k p) :=
  ⟨rfl, fun _ => rfl, fun _ => rfl, id, id, id⟩

/-! ### Denials, grants, decisions, requests -/

theorem deny_arbitrated (s : State) (a : Addr) (k : Slot) (r : DenyReason) (x : Option CarRef) :
    Arbitrated s (s.deny a k r x) := by
  unfold State.deny
  split
  · exact .refl s
  · next sec hs =>
    split
    · exact .refl s
    · exact (((setSection_arbitrated s a sec _ hs).trans (recordDenial_arbitrated _ a k r x)).trans
        (lateConflictTest_arbitrated _ a _)).trans (modifySection_arbitrated _ a _)

theorem denySection_arbitrated (s : State) (r : DenyReason) (a : Addr) : Arbitrated s (s.denySection r a) := by
  unfold State.denySection
  split
  · exact .refl s
  · exact Arbitrated.foldl (fun s k => deny_arbitrated s a k r none) _ _

theorem denyForState_arbitrated (s : State) : Arbitrated s s.denyForState := by
  unfold State.denyForState
  split
  · exact .refl s
  · have h := Arbitrated.foldl (fun s a => denySection_arbitrated s .state a) allAddrs s
    generalize allAddrs.foldl (fun s a => s.denySection .state a) s = u at h
    refine ⟨?_, h.cars, h.sections, h.decisions, h.throws⟩
    have hf := h.frame
    generalize u.flags = x1, u.cars = x2, u.sections = x3, u.decisions = x4, u.decisionOverflows = x5,
      u.cautionRequests = x6, u.throws = x7, u.positions = x8 at hf
    subst hf
    rfl

theorem consumeArm_arbitrated (s : State) (k : Slot) : Arbitrated s (s.consumeArm k) := by
  unfold State.consumeArm
  split
  · exact disarm_arbitrated s k
  · exact .refl s

theorem queueThrow_arbitrated (s : State) (x : Throw) (h : s.throws.length < 4) :
    Arbitrated s { s with throws := s.throws ++ [x] } := by
  refine ⟨rfl, fun _ => rfl, fun _ => rfl, id, fun _ => ?_, fun _ => List.append_ne_nil_of_right_ne_nil _ (by simp)⟩
  show (s.throws ++ [x]).length ≤ 4
  rw [List.length_append]
  exact h

theorem grant_arbitrated (s : State) (a : Addr) (k : Slot) : Arbitrated s (s.grant a k) := by
  unfold State.grant
  split
  · exact .refl s
  · next sec hs =>
    split
    · exact .refl s
    · split
      · next hlt =>
        exact ((((queueThrow_arbitrated s _ hlt).trans (setSection_arbitrated _ a sec _ hs)).trans
          (setPosition_arbitrated _ k _)).trans (consumeArm_arbitrated _ k)).trans (writeRecord_arbitrated _ _ _ _ _ _ _)
      · exact deny_arbitrated s _ _ _ _

theorem contest_arbitrated (s : State) (a : Addr) (k : Slot) (l : List Slot) : Arbitrated s (s.contest a k l) := by
  unfold State.contest
  split
  · exact grant_arbitrated s a k
  · exact grant_arbitrated s a k
  · exact ((modifySection_arbitrated s a _).trans (grant_arbitrated _ a _)).trans
      (Arbitrated.foldl (fun s j => deny_arbitrated s a j _ _) _ _)

theorem decideRequest_arbitrated (s : State) (a : Addr) (k : Slot) : Arbitrated s (s.decideRequest a k) := by
  unfold State.decideRequest
  split
  · exact .refl s
  · split
    · exact .refl s
    · split_ifs
      · exact .refl s
      · exact deny_arbitrated s _ _ _ _
      · exact deny_arbitrated s _ _ _ _
      · exact deny_arbitrated s _ _ _ _
      · split
        · exact deny_arbitrated s _ _ _ _
        · exact grant_arbitrated s a k
      · split
        · exact deny_arbitrated s _ _ _ _
        · exact contest_arbitrated s a k _

theorem setSection_twice_arbitrated (s : State) (a : Addr) (sec x y : Section) (h : s.sectionAt a = some sec) :
    Arbitrated s ((s.setSection a (some x)).setSection a (some y)) :=
  (setSection_arbitrated s a sec x h).trans
    (setSection_arbitrated _ a x y (by rw [setSection_sectionAt, if_pos rfl]))

theorem makeRequest_arbitrated (s : State) (a : Addr) (k : Slot) : Arbitrated s (s.makeRequest a k) := by
  unfold State.makeRequest
  split
  · exact .refl s
  · next sec hs =>
    split
    · exact .refl s
    · dsimp only
      split
      · exact (setSection_arbitrated s a sec _ hs).trans (deny_arbitrated _ _ _ _ _)
      · split
        · exact (setSection_twice_arbitrated s a sec _ _ hs).trans (decideRequest_arbitrated _ a k)
        · exact setSection_twice_arbitrated s a sec _ _ hs

/-! ### Lapses and closes -/

/-- A section record without the claim at a place, the lapse counted (R113). -/
def Section.lapsed (sec : Section) (place : Nat) : Section :=
  { sec.removeTo (sec.claims.eraseIdx place) with lapseCount := bump sec.lapseCount }

theorem lapseClaim_of_absent {s : State} {a : Addr} {place : Nat}
    (h : ∀ sec, s.sectionAt a = some sec → sec.claims[place]? = none) : s.lapseClaim a place = s := by
  unfold State.lapseClaim
  cases hs : s.sectionAt a with
  | none => rfl
  | some sec => simp only [h sec hs]

theorem lapseClaim_of_predicted {s : State} {a : Addr} {place : Nat} {sec : Section} {c : Claim}
    (hs : s.sectionAt a = some sec) (hc : sec.claims[place]? = some c) (hp : c.state = .predicted) :
    s.lapseClaim a place = s.setSection a (some (Section.lapsed sec place)) := by
  unfold State.lapseClaim Section.lapsed
  simp only [hs, hc, hp, if_true]

theorem lapseClaim_of_standing {s : State} {a : Addr} {place : Nat} {sec : Section} {c : Claim}
    (hs : s.sectionAt a = some sec) (hc : sec.claims[place]? = some c) (hp : c.state ≠ .predicted)
    (hq : c.state ≠ .pending ∨ c.car = .anon) :
    s.lapseClaim a place = ((s.setSection a (some (Section.lapsed sec place))).writeRecord a c.car .lapse none none
      false).requestCaution .lapse := by
  unfold State.lapseClaim Section.lapsed
  simp only [hs, hc, if_neg hp]
  cases hst : c.state <;> cases hcar : c.car <;> simp_all

theorem lapseClaim_of_request {s : State} {a : Addr} {place : Nat} {sec : Section} {c : Claim} {k : Slot}
    (hs : s.sectionAt a = some sec) (hc : sec.claims[place]? = some c) (hp : c.state = .pending) (hk : c.car = .slot k) :
    s.lapseClaim a place = (((s.recordDenial a k .tooLate none).setSection a (some (Section.lapsed sec place))).writeRecord
      a c.car .lapse none none false).requestCaution .lapse := by
  unfold State.lapseClaim Section.lapsed
  simp only [hs, hc, hp, hk]
  rw [if_neg (by decide)]

/-- The three things the lapse of a claim can be. -/
theorem lapseClaim_forms {s : State} {a : Addr} {place : Nat} {sec : Section} {c : Claim}
    (hs : s.sectionAt a = some sec) (hc : sec.claims[place]? = some c) :
    s.lapseClaim a place = s.setSection a (some (Section.lapsed sec place))
      ∨ s.lapseClaim a place = ((s.setSection a (some (Section.lapsed sec place))).writeRecord a c.car .lapse none none
          false).requestCaution .lapse
      ∨ ∃ k, s.lapseClaim a place = (((s.recordDenial a k .tooLate none).setSection a
          (some (Section.lapsed sec place))).writeRecord a c.car .lapse none none false).requestCaution .lapse := by
  by_cases hpred : c.state = .predicted
  · exact .inl (lapseClaim_of_predicted hs hc hpred)
  · cases hcar : c.car with
    | anon => exact .inr (.inl (hcar ▸ lapseClaim_of_standing hs hc hpred (.inr hcar)))
    | slot k =>
      by_cases hpend : c.state = .pending
      · exact .inr (.inr ⟨k, hcar ▸ lapseClaim_of_request hs hc hpend hcar⟩)
      · exact .inr (.inl (hcar ▸ lapseClaim_of_standing hs hc hpred (.inl hpend)))

/-- A lapse finds a claim at its place, or changes nothing. -/
theorem lapseClaim_finds (s : State) (a : Addr) (place : Nat) :
    s.lapseClaim a place = s ∨ ∃ sec c, s.sectionAt a = some sec ∧ sec.claims[place]? = some c := by
  by_cases h : ∀ sec, s.sectionAt a = some sec → sec.claims[place]? = none
  · exact .inl (lapseClaim_of_absent h)
  · push Not at h
    obtain ⟨sec, hs, hc⟩ := h
    obtain ⟨c, hc⟩ := Option.ne_none_iff_exists'.mp hc
    exact .inr ⟨sec, c, hs, hc⟩

theorem recordDenial_sectionAt (s : State) (a b : Addr) (k : Slot) (r : DenyReason) (x : Option CarRef) :
    (s.recordDenial a k r x).sectionAt b = s.sectionAt b := by
  unfold State.sectionAt
  rw [recordDenial_sections]

theorem lapseClaim_arbitrated (s : State) (a : Addr) (place : Nat) : Arbitrated s (s.lapseClaim a place) := by
  rcases lapseClaim_finds s a place with h | ⟨sec, c, hs, hc⟩
  · rw [h]
    exact .refl s
  rcases lapseClaim_forms hs hc with h | h | ⟨k, h⟩
  · rw [h]
    exact setSection_arbitrated s a sec _ hs
  · rw [h]
    exact ((setSection_arbitrated s a sec _ hs).trans (writeRecord_arbitrated _ _ _ _ _ _ _)).trans
      (requestCaution_arbitrated _ _)
  · rw [h]
    exact (((recordDenial_arbitrated s a k .tooLate none).trans (setSection_arbitrated _ a sec _
      ((recordDenial_sectionAt s a a k _ _).trans hs))).trans (writeRecord_arbitrated _ _ _ _ _ _ _)).trans
      (requestCaution_arbitrated _ _)

theorem closeNow_arbitrated (s : State) (a : Addr) : Arbitrated s (s.closeNow a) := by
  unfold State.closeNow
  split
  · exact .refl s
  · split
    · exact .refl s
    · exact (denySection_arbitrated s _ a).trans (modifySection_arbitrated _ a _)

/-! ### Sightings -/

theorem denyLeaving_arbitrated (s : State) (a : Addr) (k : Slot) (c : Claim) : Arbitrated s (s.denyLeaving a k c) := by
  unfold State.denyLeaving
  split
  · exact recordDenial_arbitrated s _ _ _ _
  · exact .refl s

theorem laneTest_arbitrated (s : State) (a : Addr) (k : Slot) (c : Claim) (lane : Lane) :
    Arbitrated s (s.laneTest a k c lane) := by
  unfold State.laneTest
  split
  · exact .refl s
  · exact writeRecord_arbitrated s _ _ _ _ _ _

theorem closeByInference_arbitrated (s : State) (k : Slot) (lane : Lane) (a : Addr) :
    Arbitrated s (s.closeByInference k lane a) := by
  unfold State.closeByInference
  split
  · exact .refl s
  · split
    · exact .refl s
    · split
      · exact .refl s
      · exact ((denyLeaving_arbitrated s a k _).trans (laneTest_arbitrated _ a k _ lane)).trans
          (modifySection_arbitrated _ a _)

theorem inferenceClose_arbitrated (s : State) (x : Sighting) (k : Slot) : Arbitrated s (s.inferenceClose x k) :=
  Arbitrated.foldl (fun s a => closeByInference_arbitrated s k x.lane a) _ s

theorem exitLaneTest_arbitrated (s : State) (x : Sighting) (k : Slot) : Arbitrated s (s.exitLaneTest x k) := by
  unfold State.exitLaneTest
  split
  · exact .refl s
  · split
    · exact .refl s
    · exact (denyLeaving_arbitrated s x.node k _).trans (laneTest_arbitrated _ x.node k _ x.lane)

theorem expectedLaneTest_arbitrated (s : State) (x : Sighting) (k : Slot) (b : Bool) :
    Arbitrated s (s.expectedLaneTest x k b) := by
  unfold State.expectedLaneTest
  split
  · split
    · exact writeRecord_arbitrated s _ _ _ _ _ _
    · exact .refl s
  · exact .refl s

theorem updatePosition_arbitrated (s : State) (x : Sighting) (k : Slot) (b : Bool) :
    Arbitrated s (s.updatePosition x k b) := by
  have h : Arbitrated s (if x.isExit then s.exitLaneTest x k else s) := by
    split
    · exact exitLaneTest_arbitrated s x k
    · exact .refl s
  exact (h.trans (expectedLaneTest_arbitrated _ x k b)).trans (setPosition_arbitrated _ k _)

theorem enterClaim_arbitrated (s : State) (x : Sighting) (k : Slot) : Arbitrated s (s.enterClaim x k) := by
  unfold State.enterClaim
  split
  · exact .refl s
  · next sec hs =>
    dsimp only
    split
    · exact setSection_arbitrated s _ sec _ hs
    · split
      · exact setSection_arbitrated s _ sec _ hs
      · exact (lapseClaim_arbitrated s _ _).trans (modifySection_arbitrated _ _ _)

theorem readArm_arbitrated (s : State) (a : Addr) (k : Slot) : Arbitrated s (s.readArm a k) := by
  unfold State.readArm
  split
  · exact .refl s
  · split
    · split
      · exact makeRequest_arbitrated s a k
      · exact lateConflictTest_arbitrated s a _
    · split
      · exact recordDenial_arbitrated s _ _ _ _
      · exact .refl s

theorem leave_arbitrated (s : State) (x : Sighting) (k : Slot) : Arbitrated s (s.leave x k) := by
  unfold State.leave
  split
  · exact .refl s
  · next sec hs =>
    split
    · exact .refl s
    · exact setSection_arbitrated s _ sec _ hs

theorem lookaheadAt_arbitrated (s : State) (x : Sighting) (k : Slot) (a : Addr) : Arbitrated s (s.lookaheadAt x k a) := by
  unfold State.lookaheadAt
  split
  · exact .refl s
  · next sec hs =>
    split
    · exact .refl s
    · split
      · exact .refl s
      · dsimp only
        split
        · exact (setSection_arbitrated s a sec _ hs).trans (lateConflictTest_arbitrated _ a _)
        · split
          · exact (setSection_arbitrated s a sec _ hs).trans (lateConflictTest_arbitrated _ a _)
          · exact setSection_arbitrated s a sec _ hs

theorem lookahead_arbitrated (s : State) (x : Sighting) (k : Slot) : Arbitrated s (s.lookahead x k) :=
  Arbitrated.foldl (fun s a => lookaheadAt_arbitrated s x k a) _ s

theorem anonSighting_arbitrated (s : State) (x : Sighting) : Arbitrated s (s.anonSighting x) := by
  unfold State.anonSighting
  split
  · exact .refl s
  · next sec hs =>
    dsimp only
    split
    · split
      · exact (setSection_arbitrated s _ sec _ hs).trans (lateConflictTest_arbitrated _ _ _)
      · exact setSection_arbitrated s _ sec _ hs
    · split
      · exact setSection_arbitrated s _ sec _ hs
      · exact .refl s

theorem carSighting_arbitrated (s : State) (x : Sighting) (k : Slot) : Arbitrated s (s.carSighting x k) := by
  have h := (inferenceClose_arbitrated s x k).trans (updatePosition_arbitrated _ x k (s.comparesGranted x k))
  unfold State.carSighting
  dsimp only
  split
  · exact (h.trans (enterClaim_arbitrated _ x k)).trans (readArm_arbitrated _ _ k)
  · split
    · exact (h.trans (leave_arbitrated _ x k)).trans (lookahead_arbitrated _ x k)
    · exact h.trans (lookahead_arbitrated _ x k)

theorem sighting_arbitrated (s : State) (x : Sighting) : Arbitrated s (s.sighting x) := by
  unfold State.sighting
  split
  · exact anonSighting_arbitrated s x
  · split
    · exact .refl s
    · exact carSighting_arbitrated s x _

end Sys2Proof.Proofs.Kept
end

section
/-! PROOFS. What the Section Arbiter makes of the claim lists: they keep their capacity, one claim per car slot, claims that
fit their states, and no request where no crossing may be granted. -/

namespace Sys2Proof.Proofs.Kept

open Sys2Proof Sys2Proof.Machine Host

/-! ### A list -/

/-- A claim list as it may stand, `allowed` telling whether a crossing may be granted. -/
structure ClaimsGood (allowed : Bool) (l : List Claim) : Prop where
  length : l.length ≤ 6
  single : SingleClaims l
  fits : ∀ c ∈ l, ClaimFits c
  pending : allowed = false → ∀ c ∈ l, c.state ≠ .pending

/-- The claim lists of a state, taken as one where a crossing may be granted or not. -/
def ListsGood (allowed : Bool) (s : State) : Prop := ∀ a sec, s.sectionAt a = some sec → ClaimsGood allowed sec.claims

/-- The claim lists of a state. -/
def ClaimsKept (s : State) : Prop := ListsGood s.crossingAllowed s

theorem crossingAllowed_eq_false_iff (s : State) :
    s.crossingAllowed = false ↔ s.track ≠ .run ∧ ¬ (s.track = .caution ∧ s.options.cautionLanes = .allow) := by
  unfold State.crossingAllowed
  cases s.track <;> simp

theorem claimsKept_iff (s : State) : ClaimsKept s ↔ ClaimListsKept s ∧ RequestsAllowed s := by
  constructor
  · intro h
    refine ⟨fun a sec hs => ⟨(h a sec hs).length, (h a sec hs).single, (h a sec hs).fits⟩, fun h1 h2 a sec hs => ?_⟩
    exact (h a sec hs).pending ((crossingAllowed_eq_false_iff s).mpr ⟨h1, h2⟩)
  · rintro ⟨h1, h2⟩ a sec hs
    obtain ⟨l1, l2, l3⟩ := h1 a sec hs
    refine ⟨l1, l2, l3, fun hf => ?_⟩
    obtain ⟨f1, f2⟩ := (crossingAllowed_eq_false_iff s).mp hf
    exact h2 f1 f2 a sec hs

theorem single_of_perm {l m : List Claim} (h : l.Perm m) (hm : SingleClaims m) : SingleClaims l := fun k =>
  le_of_eq_of_le (h.filter _).length_eq (hm k)

theorem single_of_sublist {l m : List Claim} (h : l.Sublist m) (hm : SingleClaims m) : SingleClaims l := fun k =>
  le_trans (h.filter _).length_le (hm k)

theorem ClaimsGood.sublist {al : Bool} {l m : List Claim} (hm : ClaimsGood al m) (h : l.Sublist m) : ClaimsGood al l :=
  ⟨le_trans h.length_le hm.length, single_of_sublist h hm.single, fun c hc => hm.fits c (h.subset hc),
    fun ha c hc => hm.pending ha c (h.subset hc)⟩

theorem ClaimsGood.nil (al : Bool) : ClaimsGood al [] :=
  ⟨by decide, fun _ => by simp, fun _ h => absurd h List.not_mem_nil, fun _ _ h => absurd h List.not_mem_nil⟩

/-- A claim placed in a list with room that holds none of its slot. -/
theorem ClaimsGood.insert {al : Bool} {l : List Claim} {c : Claim} (h : ClaimsGood al l) (hlen : l.length < 6)
    (hno : ∀ k, c.car = .slot k → ∀ d ∈ l, d.car ≠ .slot k) (hf : ClaimFits c) (hp : c.state ≠ .pending) :
    ClaimsGood al (insertClaim c l) where
  length := by
    rw [length_insertClaim]
    exact hlen
  single := by
    refine single_of_perm (insertClaim_perm c l) fun k => ?_
    rw [List.filter_cons]
    split
    · next hk =>
      have hnil : l.filter (fun d => decide (d.car = .slot k)) = [] :=
        List.filter_eq_nil_iff.mpr fun d hd => by simpa using hno k (of_decide_eq_true hk) d hd
      rw [hnil]
      exact Nat.le_refl 1
    · exact h.single k
  fits d hd := (mem_insertClaim.mp hd).elim (fun e => e ▸ hf) (h.fits d)
  pending ha d hd := (mem_insertClaim.mp hd).elim (fun e => e ▸ hp) (h.pending ha d)

/-! ### One slot's claim replaced -/

/-- A list that is good but for the claim of slot k. -/
structure GoodBeside (al : Bool) (k : Slot) (l : List Claim) : Prop where
  length : l.length ≤ 6
  single : SingleClaims l
  fits : ∀ c ∈ l, c.car ≠ .slot k → ClaimFits c
  pending : al = false → ∀ c ∈ l, c.car ≠ .slot k → c.state ≠ .pending

theorem ClaimsGood.beside {al : Bool} {l : List Claim} (h : ClaimsGood al l) (k : Slot) : GoodBeside al k l :=
  ⟨h.length, h.single, fun c hc _ => h.fits c hc, fun ha c hc _ => h.pending ha c hc⟩

theorem putClaim_claims (sec : Section) (k : Slot) (new : Claim) :
    (sec.putClaim k new).claims = sec.claims.map fun c => if c.car = .slot k then new else c := rfl

/-- The members of a list with slot k's claim replaced. -/
theorem mem_putClaim {sec : Section} {k : Slot} {new d : Claim} (h : d ∈ (sec.putClaim k new).claims) :
    d = new ∨ d ∈ sec.claims ∧ d.car ≠ .slot k := by
  rw [putClaim_claims] at h
  obtain ⟨c, hc, rfl⟩ := List.mem_map.mp h
  split
  · exact .inl rfl
  · next hk => exact .inr ⟨hc, hk⟩

theorem putClaim_single {sec : Section} {k : Slot} {new : Claim} (h : SingleClaims sec.claims) (hn : new.car = .slot k) :
    SingleClaims (sec.putClaim k new).claims := by
  intro j
  rw [putClaim_claims, List.filter_map, List.length_map]
  refine le_of_eq_of_le (congrArg List.length ?_) (h j)
  apply List.filter_congr
  intro c _
  simp only [Function.comp_apply]
  split
  · next hk => rw [hn, hk]
  · rfl

theorem GoodBeside.put {al : Bool} {k : Slot} {sec : Section} {new : Claim} (h : GoodBeside al k sec.claims)
    (hn : new.car = .slot k) : GoodBeside al k (sec.putClaim k new).claims where
  length := by
    rw [putClaim_claims, List.length_map]
    exact h.length
  single := putClaim_single h.single hn
  fits c hc hk := (mem_putClaim hc).elim (fun e => absurd (e ▸ hn) hk) fun e => h.fits c e.1 hk
  pending ha c hc hk := (mem_putClaim hc).elim (fun e => absurd (e ▸ hn) hk) fun e => h.pending ha c e.1 hk

theorem GoodBeside.put_good {al : Bool} {k : Slot} {sec : Section} {new : Claim} (h : GoodBeside al k sec.claims)
    (hn : new.car = .slot k) (hf : ClaimFits new) (hp : al = false → new.state ≠ .pending) :
    ClaimsGood al (sec.putClaim k new).claims where
  length := (h.put hn).length
  single := (h.put hn).single
  fits c hc := (mem_putClaim hc).elim (fun e => e ▸ hf) fun e => h.fits c e.1 e.2
  pending ha c hc := (mem_putClaim hc).elim (fun e => e ▸ hp ha) fun e => h.pending ha c e.1 e.2

theorem claimOf_putClaim {sec : Section} {k : Slot} {c new : Claim} (h : sec.claimOf k = some c) (hn : new.car = .slot k)
    (hu : SingleClaims sec.claims) : (sec.putClaim k new).claimOf k = some new := by
  obtain ⟨hc, hk⟩ := claimOf_some h
  refine claimOf_eq (putClaim_single hu hn) ?_ hn
  rw [putClaim_claims]
  exact List.mem_map.mpr ⟨c, hc, if_pos hk⟩

/-! ### Claims that fit -/

theorem withClear_lapse (c : Claim) (m : SectionMap) (t : ClearTime) (h : (c.withClear m t).clear = .unbounded) :
    (c.withClear m t).lapse = none := by
  have ht : t = .unbounded := h
  rw [ht]
  rfl

theorem straight_entryLane (l : Lane) : l.straight.entryLane = l := by cases l <;> rfl

theorem cross_entryLane (l : Lane) : l.cross.entryLane = l := by cases l <;> rfl

theorem straight_kind (l : Lane) : l.straight = .straightA ∨ l.straight = .straightB := by
  cases l
  · exact .inl rfl
  · exact .inr rfl

theorem cross_kind (l : Lane) : l.cross = .crossAB ∨ l.cross = .crossBA := by
  cases l
  · exact .inl rfl
  · exact .inr rfl

/-- A STRAIGHT claim made by a sighting fits (R122, R124, R125). -/
theorem straightClaim_fits (m : SectionMap) (mo : Motion) (car : CarRef) (lane : Lane) (o : ClaimOrigin) (st : ClaimState)
    (t : TrackTime) (d : Nat) (hs : st = .entered ∨ st = .predicted ∧ car ≠ .anon) :
    ClaimFits (straightClaim m mo car lane o st t d) where
  anon h := hs.elim id fun g => absurd h g.2
  straight _ := straight_kind lane
  cross h := by
    have h : st = .pending ∨ st = .granted := h
    rcases hs with rfl | ⟨rfl, -⟩ <;> exact absurd h (by decide)
  decide := by
    show (none : Option TrackTime).isSome = true ↔ st = .pending
    rcases hs with rfl | ⟨rfl, -⟩ <;> decide
  unbounded h := withClear_lapse _ m _ h
  exit := by
    show lane = if st = .granted then lane.straight.entryLane.other else lane.straight.entryLane
    rw [straight_entryLane, if_neg (by rcases hs with rfl | ⟨rfl, -⟩ <;> decide)]

/-- The claim a denial leaves fits, whatever the request was, where its exit is its own lane (R145). -/
theorem deniedClaim_fits (s : State) (sec : Section) (c : Claim) (he : c.exitLane = c.kind.entryLane) :
    ClaimFits (s.deniedClaim sec c) where
  anon _ := rfl
  straight _ := straight_kind _
  cross h := h.elim (fun x => nomatch x) (fun x => nomatch x)
  decide := ⟨(fun h => nomatch h), (fun h => nomatch h)⟩
  unbounded h := withClear_lapse _ _ _ h
  exit := by
    show c.exitLane = c.kind.entryLane.straight.entryLane
    rw [straight_entryLane, he]

theorem fits_exit_own {c : Claim} (h : ClaimFits c) (hs : c.state ≠ .granted) : c.exitLane = c.kind.entryLane := by
  rw [h.exit, if_neg hs]

/-! ### The lists of a state -/

theorem claimsKept_of_same {s t : State} (h : ClaimsKept s) (hs : t.sections = s.sections)
    (ha : t.crossingAllowed = s.crossingAllowed) : ClaimsKept t := by
  intro a sec hsec
  rw [ha]
  unfold State.sectionAt at hsec
  rw [hs] at hsec
  exact h a sec hsec

theorem claimsKept_set {s : State} (h : ClaimsKept s) (a : Addr) (sec : Section)
    (hg : ClaimsGood s.crossingAllowed sec.claims) : ClaimsKept (s.setSection a (some sec)) := by
  intro b sec' hb
  rw [setSection_sectionAt] at hb
  split at hb
  · obtain rfl := Option.some.inj hb
    exact hg
  · exact h b sec' hb

theorem claimsKept_modify {s : State} (h : ClaimsKept s) (a : Addr) (f : Section → Section)
    (hg : ∀ sec, s.sectionAt a = some sec → ClaimsGood s.crossingAllowed (f sec).claims) :
    ClaimsKept (s.modifySection a f) := by
  intro b sec' hb
  rw [modifySection_sectionAt] at hb
  split at hb
  · next e =>
    subst e
    obtain ⟨sec, hs, rfl⟩ := Option.map_eq_some_iff.mp hb
    exact hg sec hs
  · exact h b sec' hb

/-- The lists of every section but a are good. -/
def KeptBeside (al : Bool) (s : State) (a : Addr) : Prop :=
  ∀ b sec, b ≠ a → s.sectionAt b = some sec → ClaimsGood al sec.claims

/-- A denial leaves good lists, were the request itself not fitting (R145). -/
theorem deny_claims {al : Bool} (s : State) (a : Addr) (k : Slot) (r : DenyReason) (x : Option CarRef)
    (ho : KeptBeside al s a)
    (hk : ∀ sec, s.sectionAt a = some sec → ∃ c, sec.claimOf k = some c ∧ c.exitLane = c.kind.entryLane
      ∧ GoodBeside al k sec.claims) : ListsGood al (s.deny a k r x) := by
  intro b sec' hb
  by_cases hba : b = a
  · subst hba
    cases hs : s.sectionAt b with
    | none =>
      have : s.deny b k r x = s := by simp [State.deny, hs]
      rw [this, hs] at hb
      exact nomatch hb
    | some sec =>
      obtain ⟨c, hc, he, hg⟩ := hk sec hs
      have e := deny_sections s b k r x sec c hs hc
      unfold State.sectionAt at hb
      rw [e] at hb
      simp only [Fin.getElem_fin, Vector.getElem_set_self, Option.some.injEq] at hb
      rw [← hb, finishClose_claims]
      exact hg.put_good (claimOf_some hc).2 (deniedClaim_fits s sec c he) fun _ => by rw [deniedClaim_state]; decide
  · rw [deny_sectionAt_ne s a b k r x hba] at hb
    exact ho b sec' hba hb

/-- No claim of slot k at section a is GRANTED. -/
def NotGranted (s : State) (a : Addr) (k : Slot) : Prop :=
  ∀ sec, s.sectionAt a = some sec → ∀ c ∈ sec.claims, c.car = .slot k → c.state ≠ .granted

theorem deny_lists {al : Bool} {s : State} (h : ListsGood al s) (a : Addr) (k : Slot) (r : DenyReason) (x : Option CarRef)
    (hg : NotGranted s a k) : ListsGood al (s.deny a k r x) := by
  cases hs : s.sectionAt a with
  | none =>
    have : s.deny a k r x = s := by simp [State.deny, hs]
    rwa [this]
  | some sec =>
    cases hc : sec.claimOf k with
    | none => rwa [deny_of_no_claim s a k r x sec hs hc]
    | some c =>
      refine deny_claims s a k r x (fun b sec' _ hb => h b sec' hb) fun sec' hs' => ?_
      obtain rfl := Option.some.inj (hs.symm.trans hs')
      obtain ⟨hm, hk⟩ := claimOf_some hc
      exact ⟨c, hc, fits_exit_own ((h a sec hs).fits c hm) (hg sec hs c hm hk), (h a sec hs).beside k⟩

/-- Operations of the arbiter leave what crossings may be granted. -/
theorem claimsKept_of_lists {s t : State} (g : Arbitrated s t) (h : ListsGood s.crossingAllowed t) : ClaimsKept t := by
  unfold ClaimsKept
  rwa [g.crossingAllowed]

theorem deny_kept {s : State} (h : ClaimsKept s) (a : Addr) (k : Slot) (r : DenyReason) (x : Option CarRef)
    (hg : NotGranted s a k) : ClaimsKept (s.deny a k r x) :=
  claimsKept_of_lists (deny_arbitrated s a k r x) (deny_lists h a k r x hg)

/-- A claim at section a after a denial there: an old one, or one left ENTERED. -/
theorem deny_mem {s : State} {a : Addr} {k : Slot} {r : DenyReason} {x : Option CarRef} {sec' : Section} {c : Claim}
    (hs' : (s.deny a k r x).sectionAt a = some sec') (hc : c ∈ sec'.claims) :
    c.state = .entered ∨ ∃ sec, s.sectionAt a = some sec ∧ c ∈ sec.claims := by
  cases hs : s.sectionAt a with
  | none =>
    have : s.deny a k r x = s := by simp [State.deny, hs]
    rw [this, hs] at hs'
    exact nomatch hs'
  | some sec =>
    cases hk : sec.claimOf k with
    | none =>
      rw [deny_of_no_claim s a k r x sec hs hk, hs] at hs'
      obtain rfl := Option.some.inj hs'
      exact .inr ⟨sec, rfl, hc⟩
    | some d =>
      have e := deny_sections s a k r x sec d hs hk
      unfold State.sectionAt at hs'
      rw [e] at hs'
      simp only [Fin.getElem_fin, Vector.getElem_set_self, Option.some.injEq] at hs'
      rw [← hs', finishClose_claims] at hc
      exact (mem_putClaim hc).imp (fun e => by rw [e]; rfl) fun e => ⟨sec, rfl, e.1⟩

theorem deny_notGranted {s : State} {a : Addr} {j k : Slot} {r : DenyReason} {x : Option CarRef} (h : NotGranted s a j) :
    NotGranted (s.deny a k r x) a j := by
  intro sec' hs' c hc hj
  rcases deny_mem hs' hc with e | ⟨sec, hs, hm⟩
  · rw [e]
    decide
  · exact h sec hs c hm hj

/-- A run of denials of requests of one section. -/
theorem foldl_deny_lists {al : Bool} (a : Addr) (r : DenyReason) (x : Option CarRef) : ∀ (l : List Slot) (u : State),
    ListsGood al u → (∀ k ∈ l, NotGranted u a k) → ListsGood al (l.foldl (fun s k => s.deny a k r x) u)
  | [], _, h, _ => h
  | k :: l, _, h, hg => foldl_deny_lists a r x l _ (deny_lists h a k r x (hg k List.mem_cons_self)) fun j hj =>
      deny_notGranted (hg j (List.mem_cons_of_mem k hj))

theorem foldl_deny_kept (a : Addr) (r : DenyReason) (x : Option CarRef) (l : List Slot) (u : State) (h : ClaimsKept u)
    (hg : ∀ k ∈ l, NotGranted u a k) : ClaimsKept (l.foldl (fun s k => s.deny a k r x) u) :=
  claimsKept_of_lists (Arbitrated.foldl (fun s k => deny_arbitrated s a k r x) l u) (foldl_deny_lists a r x l u h hg)

theorem notGranted_of_pending {al : Bool} {s : State} (h : ListsGood al s) {a : Addr} {sec : Section} {c : Claim} {k : Slot}
    (hs : s.sectionAt a = some sec) (hc : c ∈ sec.claims) (hk : c.car = .slot k) (hp : c.state = .pending) :
    NotGranted s a k := by
  intro sec' hs' d hd hdk
  obtain rfl := Option.some.inj (hs.symm.trans hs')
  rw [(h a sec hs).single.unique hd hc hdk hk, hp]
  decide

theorem denySection_lists {al : Bool} {s : State} (h : ListsGood al s) (r : DenyReason) (a : Addr) :
    ListsGood al (s.denySection r a) := by
  unfold State.denySection
  cases hs : s.sectionAt a with
  | none => exact h
  | some sec =>
    refine foldl_deny_lists a r none _ s h fun k hk => ?_
    obtain ⟨c, hc, hcar, hst⟩ := pendingSlots_mem hk
    exact notGranted_of_pending h hs hc hcar hst

theorem denySection_kept {s : State} (h : ClaimsKept s) (r : DenyReason) (a : Addr) : ClaimsKept (s.denySection r a) :=
  claimsKept_of_lists (denySection_arbitrated s r a) (denySection_lists h r a)

theorem denyForState_lists {al : Bool} {s : State} (h : ListsGood al s) : ListsGood al s.denyForState := by
  have hfold : ListsGood al (allAddrs.foldl (fun s a => s.denySection .state a) s) :=
    List.foldlRecOn (motive := ListsGood al) allAddrs _ h fun _ hu a _ => denySection_lists hu .state a
  have hand (u : State) (q : List CautionSource) (hu : ListsGood al u) : ListsGood al (handed u q) := hu
  unfold State.denyForState
  split
  · exact h
  · exact hand _ _ hfold

/-- After the denials that a state or an option asks for, the lists are good for it (R151). -/
theorem denyForState_kept {s : State} (h : ListsGood true s) : ClaimsKept s.denyForState := by
  have hc := (denyForState_arbitrated s).crossingAllowed
  intro a sec hs
  refine ⟨(denyForState_lists h a sec hs).length, (denyForState_lists h a sec hs).single, (denyForState_lists h a sec hs).fits,
    fun hf => ?_⟩
  refine denyForState_noPending s (hc.symm.trans hf) (fun b sec' hb c hm ha => ?_) a sec hs
  rw [((h b sec' hb).fits c hm).anon ha]
  decide

theorem ClaimsKept.lists {s : State} (h : ClaimsKept s) : ListsGood true s := fun a sec hs =>
  ⟨(h a sec hs).length, (h a sec hs).single, (h a sec hs).fits, fun hf => nomatch hf⟩

/-! ### Grants and decisions -/

/-- Every claim of slot k at section a is PENDING. -/
def AllPending (s : State) (a : Addr) (k : Slot) : Prop :=
  ∀ sec, s.sectionAt a = some sec → ∀ c ∈ sec.claims, c.car = .slot k → c.state = .pending

theorem AllPending.notGranted {s : State} {a : Addr} {k : Slot} (h : AllPending s a k) : NotGranted s a k :=
  fun sec hs c hc hk => by rw [h sec hs c hc hk]; decide

theorem granted_fits {c : Claim} (h : ClaimFits c) (hp : c.state = .pending) {k : Slot} (hk : c.car = .slot k) :
    ClaimFits { c with state := .granted, exitLane := c.kind.entryLane.other, decideTime := none } where
  anon h := by
    rw [hk] at h
    exact nomatch h
  straight h := h.elim (fun x => nomatch x) (fun x => nomatch x)
  cross _ := h.cross (.inl hp)
  decide := ⟨(fun x => nomatch x), (fun x => nomatch x)⟩
  unbounded := h.unbounded
  exit := rfl

/-- Where the transmit queue has room a grant changes slot k's claim alone; else it is a denial. -/
theorem grant_sections (s : State) (a : Addr) (k : Slot) (sec : Section) (c : Claim) (hs : s.sectionAt a = some sec)
    (hc : sec.claimOf k = some c) (ht : s.throws.length < 4) :
    (s.grant a k).sections = s.sections.set a (some (sec.putClaim k
      { c with state := .granted, exitLane := c.kind.entryLane.other, decideTime := none })) := by
  rw [grant_eq s a k sec c hs hc ht]
  unfold granted
  rw [recorded_eq, recordedAll_eq]
  rfl

theorem grant_of_full (s : State) (a : Addr) (k : Slot) (h : ¬ s.throws.length < 4) :
    s.grant a k = s.deny a k .busBusy none := by
  unfold State.grant
  cases hs : s.sectionAt a with
  | none => simp [State.deny, hs]
  | some sec =>
    cases hc : sec.claimOf k with
    | none => simp [State.deny, hs, hc]
    | some c =>
      simp only [hc]
      exact if_neg h

theorem grant_of_no_claim (s : State) (a : Addr) (k : Slot)
    (h : ∀ sec, s.sectionAt a = some sec → sec.claimOf k = none) : s.grant a k = s := by
  unfold State.grant
  cases hs : s.sectionAt a with
  | none => rfl
  | some sec => simp only [h sec hs]

theorem grant_kept {s : State} (h : ClaimsKept s) (a : Addr) (k : Slot) (hp : AllPending s a k) :
    ClaimsKept (s.grant a k) ∧ ∀ j, j ≠ k → NotGranted s a j → NotGranted (s.grant a k) a j := by
  by_cases ht : s.throws.length < 4
  · by_cases hn : ∀ sec, s.sectionAt a = some sec → sec.claimOf k = none
    · rw [grant_of_no_claim s a k hn]
      exact ⟨h, fun _ _ hj => hj⟩
    · push Not at hn
      obtain ⟨sec, hs, hc⟩ := hn
      obtain ⟨c, hc⟩ := Option.ne_none_iff_exists'.mp hc
      obtain ⟨hm, hk⟩ := claimOf_some hc
      have hsec := grant_sections s a k sec c hs hc ht
      have hst := hp sec hs c hm hk
      constructor
      · refine claimsKept_of_same (claimsKept_set h a _ ?_) hsec (grant_arbitrated s a k).crossingAllowed
        exact ((h a sec hs).beside k).put_good hk (granted_fits ((h a sec hs).fits c hm) hst hk) fun _ x => nomatch x
      · intro j hj hg sec' hs' d hd hdj
        unfold State.sectionAt at hs'
        rw [hsec] at hs'
        simp only [Fin.getElem_fin, Vector.getElem_set_self, Option.some.injEq] at hs'
        rw [← hs'] at hd
        rcases mem_putClaim hd with e | e
        · rw [e] at hdj
          have hdj : c.car = .slot j := hdj
          rw [hk] at hdj
          exact absurd (CarRef.slot.inj hdj).symm hj
        · exact hg sec hs d e.1 hdj
  · rw [grant_of_full s a k ht]
    exact ⟨deny_kept h a k _ _ hp.notGranted, fun j _ hg => deny_notGranted hg⟩

theorem advancePointer_sectionAt (s : State) (a : Addr) (w : Slot) :
    (s.advancePointer a w).sectionAt a = (s.sectionAt a).map fun sec => { sec with pointer := w + 1 } := by
  unfold State.advancePointer
  rw [modifySection_sectionAt, if_pos rfl]

theorem advancePointer_claims (s : State) (a : Addr) (w k : Slot) :
    (AllPending s a k → AllPending (s.advancePointer a w) a k)
      ∧ (NotGranted s a k → NotGranted (s.advancePointer a w) a k) := by
  constructor <;> intro h sec' hs' c hc hk <;> rw [advancePointer_sectionAt] at hs' <;>
    obtain ⟨sec, hs, rfl⟩ := Option.map_eq_some_iff.mp hs' <;> exact h sec hs c hc hk

theorem contest_kept {s : State} (h : ClaimsKept s) (a : Addr) (k : Slot) (l : List Slot) (hk : AllPending s a k)
    (hl : ∀ j ∈ l, AllPending s a j) (hn : l.Nodup) : ClaimsKept (s.contest a k l) := by
  unfold State.contest
  split
  · exact (grant_kept h a k hk).1
  · exact (grant_kept h a k hk).1
  · next w losers _ =>
    obtain ⟨hw, -⟩ := List.nodup_cons.mp hn
    have h1 : ClaimsKept (s.advancePointer a w) := claimsKept_modify h a _ fun sec hs => h a sec hs
    obtain ⟨g1, g2⟩ := grant_kept h1 a w ((advancePointer_claims s a w w).1 (hl w List.mem_cons_self))
    refine foldl_deny_kept a _ _ losers _ g1 fun j hj => ?_
    exact g2 j (fun e => hw (e ▸ hj)) ((advancePointer_claims s a w j).2 (hl j (List.mem_cons_of_mem w hj)).notGranted)

theorem searchFrom_nodup (p : Slot) : (searchFrom p).Nodup := by
  revert p
  decide

theorem contestants_nodup (sec : Section) (r : Claim) : (sec.contestants r).Nodup := by
  unfold Section.contestants
  exact (searchFrom_nodup _).filter _

/-- The contestants are the request's slot and slots of PENDING claims in conflict with it (R149). -/
theorem contestants_allPending {s : State} (h : ClaimsKept s) {a : Addr} {sec : Section} {k : Slot} {r : Claim}
    (hs : s.sectionAt a = some sec) (hr : sec.claimOf k = some r) (hp : r.state = .pending)
    (hc : (sec.conflictSet r).find? (fun c => decide (c.state ≠ .pending)) = none) (j : Slot)
    (hj : j ∈ sec.contestants r) : AllPending s a j := by
  obtain ⟨hm, -⟩ := claimOf_some hr
  have key (d : Claim) (hd : d ∈ sec.claims) (hdj : d.car = .slot j) (hdp : d.state = .pending) : AllPending s a j := by
    intro sec' hs' c hc hcj
    obtain rfl := Option.some.inj (hs.symm.trans hs')
    rw [(h a sec hs).single.unique hc hd hcj hdj, hdp]
  unfold Section.contestants at hj
  obtain ⟨-, hj⟩ := List.mem_filter.mp hj
  rcases Bool.or_eq_true_iff.mp hj with e | e
  · exact key r hm (of_decide_eq_true e) hp
  · obtain ⟨d, hd, e⟩ := List.any_eq_true.mp e
    have hset := (List.mem_filter.mp hd).1
    refine key d (List.mem_filter.mp hset).1 (of_decide_eq_true e) ?_
    simpa using List.find?_eq_none.mp hc d hset

theorem decideRequest_kept {s : State} (h : ClaimsKept s) (a : Addr) (k : Slot) : ClaimsKept (s.decideRequest a k) := by
  unfold State.decideRequest
  cases hs : s.sectionAt a with
  | none => exact h
  | some sec =>
    dsimp only
    cases hr : sec.claimOf k with
    | none => exact h
    | some r =>
      dsimp only
      by_cases hp : r.state = .pending
      · obtain ⟨hm, hk⟩ := claimOf_some hr
        have hall : AllPending s a k := by
          intro sec' hs' c hc hck
          obtain rfl := Option.some.inj (hs.symm.trans hs')
          rw [(h a sec hs).single.unique hc hm hck hk, hp]
        have denied (x : DenyReason) (o : Option CarRef) : ClaimsKept (s.deny a k x o) := deny_kept h a k x o hall.notGranted
        rw [if_neg (not_not.mpr hp)]
        split_ifs
        · exact denied _ _
        · exact denied _ _
        · exact denied _ _
        all_goals
          split
          · exact denied _ _
          · next hf =>
            first
              | exact (grant_kept h a k hall).1
              | exact contest_kept h a k _ hall (contestants_allPending h hs hr hp hf)
                  (contestants_nodup sec r)
      · rw [if_pos hp]
        exact h

/-! ### Requests -/

theorem putClaim_twice (sec : Section) (k : Slot) (x y : Claim) (hx : x.car = .slot k) :
    (sec.putClaim k x).putClaim k y = sec.putClaim k y := by
  unfold Section.putClaim
  simp only [List.map_map]
  congr 1
  apply List.map_congr_left
  intro c _
  by_cases h : c.car = .slot k
  · simp [h, hx]
  · simp [h]

/-- A claim that has entered, asking to cross: refused, PENDING, or decided; it is PENDING only where a crossing may be
granted (R142, R143). -/
theorem makeRequest_kept {s : State} (h : ClaimsKept s) (a : Addr) (k : Slot)
    (he : ∀ sec c, s.sectionAt a = some sec → sec.claimOf k = some c → c.state = .entered) :
    ClaimsKept (s.makeRequest a k) := by
  unfold State.makeRequest
  cases hs : s.sectionAt a with
  | none => exact h
  | some sec =>
    dsimp only
    cases hc : sec.claimOf k with
    | none => exact h
    | some c =>
      dsimp only
      obtain ⟨hm, hk⟩ := claimOf_some hc
      have hst := he sec c hs hc
      have hfit := (h a sec hs).fits c hm
      have hexit : c.exitLane = c.kind.entryLane.cross.entryLane := by
        rw [cross_entryLane]
        exact fits_exit_own hfit (by rw [hst]; decide)
      generalize hr : Claim.withClear { c with kind := c.kind.entryLane.cross } sec.map
        ((s.motion sec c.car).clearTime sec.map c.sense sec.map.approach c.kind.entryLane.cross) = r
      have hrk : r.car = .slot k := by rw [← hr]; exact hk
      have hre : r.exitLane = r.kind.entryLane := by rw [← hr]; exact hexit
      have hrl : r.clear = .unbounded → r.lapse = none := by rw [← hr]; exact withClear_lapse _ _ _
      have hrc : r.kind = .crossAB ∨ r.kind = .crossBA := by rw [← hr]; exact cross_kind _
      have hput := ((h a sec hs).beside k).put hrk
      split
      · refine claimsKept_of_lists (deny_arbitrated _ a k _ none)
          (deny_claims _ a k _ none (fun b sec' hb hb' => ?_) fun sec' hs' => ?_)
        · rw [setSection_sectionAt, if_neg hb] at hb'
          exact h b sec' hb'
        · rw [setSection_sectionAt, if_pos rfl] at hs'
          obtain rfl := Option.some.inj hs'
          exact ⟨r, claimOf_putClaim hc hrk (h a sec hs).single, hre, hput⟩
      · next hnone =>
        have hallowed : s.crossingAllowed = true := by
          cases hal : s.crossingAllowed with
          | true => rfl
          | false =>
            have e : (s.setSection a (some (sec.putClaim k r))).crossingAllowed = false := hal
            unfold State.refusal at hnone
            rw [e] at hnone
            exact nomatch hnone
        have hasked : ClaimsKept ((s.setSection a (some (sec.putClaim k r))).setSection a (some (sec.putClaim k
            { r with state := .pending, decideTime := some (before r.enter sec.map.lead) }))) := by
          have e : (s.setSection a (some (sec.putClaim k r))).setSection a (some (sec.putClaim k
              { r with state := .pending, decideTime := some (before r.enter sec.map.lead) }))
              = s.setSection a (some (sec.putClaim k
                { r with state := .pending, decideTime := some (before r.enter sec.map.lead) })) := by
            unfold State.setSection
            simp only [Vector.set_set]
          rw [e]
          refine claimsKept_set h a _ (((h a sec hs).beside k).put_good hrk ?_ fun hf => ?_)
          · exact {
              anon := fun x => by
                have x : r.car = .anon := x
                rw [hrk] at x
                exact nomatch x
              straight := fun x => x.elim (fun y => nomatch y) (fun y => nomatch y)
              cross := fun _ => hrc
              decide := ⟨fun _ => rfl, fun _ => rfl⟩
              unbounded := hrl
              exit := hre }
          · rw [hallowed] at hf
            exact nomatch hf
        split
        · exact decideRequest_kept hasked a k
        · exact hasked

/-! ### Lapses and closes -/

theorem lapsed_claims (sec : Section) (place : Nat) : (Section.lapsed sec place).claims = sec.claims.eraseIdx place :=
  removeTo_claims sec _

/-- A lapse takes the claim out of its list, and changes no other. -/
theorem lapseClaim_sections {s : State} {a : Addr} {place : Nat} {sec : Section} {c : Claim}
    (hs : s.sectionAt a = some sec) (hc : sec.claims[place]? = some c) :
    (s.lapseClaim a place).sections = s.sections.set a (some (Section.lapsed sec place)) := by
  have written (u : State) (car : CarRef) :
      ((u.writeRecord a car .lapse none none false).requestCaution .lapse).sections = u.sections :=
    writeDecision_sections u _
  rcases lapseClaim_forms hs hc with h | h | ⟨k, h⟩
  · rw [h]
    rfl
  · rw [h, written]
    rfl
  · rw [h, written, setSection_sections, recordDenial_sections]

theorem lapseClaim_kept {s : State} (h : ClaimsKept s) (a : Addr) (place : Nat) : ClaimsKept (s.lapseClaim a place) := by
  rcases lapseClaim_finds s a place with e | ⟨sec, c, hs, hc⟩
  · rwa [e]
  · refine claimsKept_of_same (claimsKept_set h a (Section.lapsed sec place) ?_) (lapseClaim_sections hs hc)
      (lapseClaim_arbitrated s a place).crossingAllowed
    rw [lapsed_claims]
    exact (h a sec hs).sublist (List.eraseIdx_sublist _ _)

theorem closeNow_kept {s : State} (h : ClaimsKept s) (a : Addr) : ClaimsKept (s.closeNow a) := by
  unfold State.closeNow
  split
  · exact h
  · split
    · exact h
    · exact claimsKept_modify (denySection_kept h _ a) a _ fun sec hs => denySection_kept h _ a a sec hs

/-! ### Sightings -/

theorem addClaim_good {al : Bool} {sec : Section} {now : TrackTime} {c : Claim} (h : ClaimsGood al sec.claims)
    (hno : ∀ k, c.car = .slot k → ∀ d ∈ sec.claims, d.car ≠ .slot k) (hf : ClaimFits c) (hp : c.state ≠ .pending) :
    ClaimsGood al (sec.addClaim now c).claims := by
  unfold Section.addClaim
  split
  · next hlt => exact h.insert hlt hno hf hp
  · exact h

/-- Slot k's claim taken out, where it has one, leaves room. -/
theorem filter_length_lt {sec : Section} {k : Slot} {c : Claim} (hc : sec.claimOf k = some c)
    (hl : sec.claims.length ≤ 6) : (sec.claims.filter fun d => d.car != .slot k).length < 6 := by
  obtain ⟨hm, hk⟩ := claimOf_some hc
  exact lt_of_lt_of_le (List.length_filter_lt_length_iff_exists.mpr ⟨c, hm, by simp [hk]⟩) hl

theorem placeAgain_good {al : Bool} {sec : Section} {k : Slot} {c new : Claim} (h : ClaimsGood al sec.claims)
    (hc : sec.claimOf k = some c) (hn : new.car = .slot k) (hf : ClaimFits new) (hp : new.state ≠ .pending) :
    ClaimsGood al (sec.placeAgain k new).claims := by
  refine (h.sublist List.filter_sublist).insert (filter_length_lt hc h.length) (fun j hj d hd => ?_) hf hp
  obtain rfl := CarRef.slot.inj (hn.symm.trans hj)
  simpa using (List.mem_filter.mp hd).2

/-- The first claim of a slot is its only one: without it the list is that of the other cars. -/
theorem eraseIdx_findIdx_eq_filter {l : List Claim} (h : SingleClaims l) (k : Slot) :
    l.eraseIdx (l.findIdx fun c => c.car == .slot k) = l.filter fun c => c.car != .slot k := by
  induction l with
  | nil => rfl
  | cons c l ih =>
    rw [List.findIdx_cons, List.filter_cons]
    by_cases hk : c.car = .slot k
    · have hnone : ∀ d ∈ l, d.car ≠ .slot k := by
        intro d hd hdk
        have hlen := h k
        rw [List.filter_cons_of_pos (by simp [hk])] at hlen
        have := List.length_pos_of_mem (List.mem_filter.mpr ⟨hd, by simp [hdk]⟩ :
          d ∈ l.filter fun c => decide (c.car = .slot k))
        simp only [List.length_cons] at hlen
        omega
      have hall : l.filter (fun c => c.car != .slot k) = l :=
        List.filter_eq_self.mpr fun d hd => by simpa using hnone d hd
      simp [hk, hall]
    · have hne : (c.car == CarRef.slot k) = false := beq_eq_false_iff_ne.mpr hk
      simp [hne, hk, ih h.tail]

theorem closeByInference_kept {s : State} (h : ClaimsKept s) (k : Slot) (lane : Lane) (a : Addr) :
    ClaimsKept (s.closeByInference k lane a) := by
  have tested (c : Claim) : ((s.denyLeaving a k c).laneTest a k c lane).sections = s.sections := by
    unfold State.laneTest State.denyLeaving
    split <;> split
    · exact recordDenial_sections ..
    · rfl
    · exact (writeDecision_sections _ _).trans (recordDenial_sections ..)
    · exact writeDecision_sections _ _
  unfold State.closeByInference
  split
  · exact h
  · split
    · exact h
    · next c _ =>
      split
      · exact h
      · have h1 : ClaimsKept ((s.denyLeaving a k c).laneTest a k c lane) := claimsKept_of_same h (tested c)
          ((denyLeaving_arbitrated s a k c).trans (laneTest_arbitrated _ a k c lane)).crossingAllowed
        refine claimsKept_modify h1 a _ fun sec hs => ?_
        unfold Section.removeSlot
        rw [removeTo_claims]
        exact (h1 a sec hs).sublist List.filter_sublist

theorem inferenceClose_kept {s : State} (h : ClaimsKept s) (x : Sighting) (k : Slot) : ClaimsKept (s.inferenceClose x k) :=
  List.foldlRecOn (motive := ClaimsKept) _ _ h fun _ hu a _ => closeByInference_kept hu k x.lane a

theorem updatePosition_sections (s : State) (x : Sighting) (k : Slot) (b : Bool) :
    (s.updatePosition x k b).sections = s.sections := by
  have h1 : (s.exitLaneTest x k).sections = s.sections := by
    unfold State.exitLaneTest State.laneTest State.denyLeaving
    split
    · rfl
    · split
      · rfl
      · split <;> split
        · exact recordDenial_sections ..
        · rfl
        · exact (writeDecision_sections _ _).trans (recordDenial_sections ..)
        · exact writeDecision_sections _ _
  have h2 (u : State) : (u.expectedLaneTest x k b).sections = u.sections := by
    unfold State.expectedLaneTest
    split
    · split
      · exact writeDecision_sections _ _
      · rfl
    · rfl
  have h3 (u : State) : ((u.expectedLaneTest x k b).seen x k).sections = (u.expectedLaneTest x k b).sections := rfl
  unfold State.updatePosition
  dsimp only
  rw [h3, h2]
  split
  · exact h1
  · rfl

/-- The lapse of slot k's own claim finds it. -/
theorem lapseClaim_own_sectionAt {s : State} {a : Addr} {sec : Section} {k : Slot} {c : Claim}
    (hs : s.sectionAt a = some sec) (hc : sec.claimOf k = some c) :
    (s.lapseClaim a (sec.claims.findIdx fun c => c.car == .slot k)).sectionAt a
      = some (Section.lapsed sec (sec.claims.findIdx fun c => c.car == .slot k)) := by
  obtain ⟨hm, hk⟩ := claimOf_some hc
  have hlt : (sec.claims.findIdx fun c => c.car == .slot k) < sec.claims.length :=
    List.findIdx_lt_length_of_exists ⟨c, hm, by simp [hk]⟩
  unfold State.sectionAt
  rw [lapseClaim_sections hs (List.getElem?_eq_getElem hlt)]
  simp

/-- After an entry the lists are good, and slot k's claim there, where stored, is ENTERED (R122). -/
theorem enterClaim_kept {s : State} (h : ClaimsKept s) (x : Sighting) (k : Slot) :
    ClaimsKept (s.enterClaim x k)
      ∧ ∀ sec c, (s.enterClaim x k).sectionAt x.node = some sec → sec.claimOf k = some c → c.state = .entered := by
  unfold State.enterClaim
  cases hs : s.sectionAt x.node with
  | none => exact ⟨h, fun sec c hs' => by rw [hs] at hs'; exact nomatch hs'⟩
  | some sec =>
    dsimp only
    have hgood := h x.node sec hs
    have hfresh (sec' : Section) (o : ClaimOrigin) :=
      straightClaim_fits sec'.map (s.motion sec' (.slot k)) (.slot k) x.lane o .entered x.sense sec'.map.approach (.inl rfl)
    cases hc : sec.claimOf k with
    | none =>
      dsimp only
      refine ⟨claimsKept_set h _ _ (addClaim_good hgood (fun j hj d hd => ?_) (hfresh _ _) (by intro e; cases e)), ?_⟩
      · obtain rfl := CarRef.slot.inj hj
        exact claimOf_none hc d hd
      · intro sec' c hs' hc'
        rw [setSection_sectionAt, if_pos rfl] at hs'
        obtain rfl := Option.some.inj hs'
        obtain ⟨hm, hk⟩ := claimOf_some hc'
        rcases mem_addClaim hm with e | e
        · rw [e]
          rfl
        · exact absurd hk (claimOf_none hc c e)
    | some c =>
      dsimp only
      split
      · refine ⟨claimsKept_set h _ _ (placeAgain_good hgood hc rfl (hfresh _ _) (by intro e; cases e)), ?_⟩
        intro sec' c' hs' hc'
        rw [setSection_sectionAt, if_pos rfl] at hs'
        obtain rfl := Option.some.inj hs'
        obtain ⟨hm, hk⟩ := claimOf_some hc'
        rcases mem_insertClaim.mp hm with e | e
        · rw [e]
          rfl
        · exact absurd hk (by simpa using (List.mem_filter.mp e).2)
      · have hl := lapseClaim_kept h x.node (sec.claims.findIdx fun c => c.car == .slot k)
        have hother : ∀ sec', (s.lapseClaim x.node (sec.claims.findIdx fun c => c.car == .slot k)).sectionAt x.node = some sec' →
            ∀ d ∈ sec'.claims, d.car ≠ .slot k := by
          intro sec' hs' d hd
          rw [lapseClaim_own_sectionAt hs hc] at hs'
          obtain rfl := Option.some.inj hs'
          rw [lapsed_claims, eraseIdx_findIdx_eq_filter hgood.single] at hd
          simpa using (List.mem_filter.mp hd).2
        refine ⟨claimsKept_modify hl _ _ fun sec' hs' => addClaim_good (hl _ _ hs') (fun j hj d hd => ?_) (hfresh _ _)
          (by intro e; cases e), ?_⟩
        · obtain rfl := CarRef.slot.inj hj
          exact hother sec' hs' d hd
        · intro sec' c' hs' hc'
          rw [modifySection_sectionAt, if_pos rfl] at hs'
          obtain ⟨sec0, hs0, rfl⟩ := Option.map_eq_some_iff.mp hs'
          obtain ⟨hm, hk⟩ := claimOf_some hc'
          rcases mem_addClaim hm with e | e
          · rw [e]
            rfl
          · exact absurd hk (hother sec0 hs0 c' e)

/-- Claims of a state whose lists are good beside what an operation of the arbiter leaves alone. -/
theorem claimsKept_of_sections {s t : State} (h : ClaimsKept s) (g : Arbitrated s t) (hs : t.sections = s.sections) :
    ClaimsKept t := claimsKept_of_same h hs g.crossingAllowed

theorem lateConflictTest_kept {s : State} (h : ClaimsKept s) (a : Addr) (c : Claim) : ClaimsKept (s.lateConflictTest a c) :=
  claimsKept_of_sections h (lateConflictTest_arbitrated s a c) (lateConflictTest_sections s a c)

/-- The arm of an entered claim read (R122). -/
theorem readArm_kept {s : State} (h : ClaimsKept s) (a : Addr) (k : Slot)
    (he : ∀ sec c, s.sectionAt a = some sec → sec.claimOf k = some c → c.state = .entered) : ClaimsKept (s.readArm a k) := by
  unfold State.readArm
  split
  · exact h
  · split
    · split
      · exact makeRequest_kept h a k he
      · exact lateConflictTest_kept h a _
    · split
      · exact claimsKept_of_sections h (recordDenial_arbitrated s a k _ _) (recordDenial_sections ..)
      · exact h

theorem leave_kept {s : State} (h : ClaimsKept s) (x : Sighting) (k : Slot) : ClaimsKept (s.leave x k) := by
  unfold State.leave
  split
  · exact h
  · next sec hs =>
    split
    · exact h
    · refine claimsKept_set h _ _ ?_
      unfold Section.removeSlot
      rw [removeTo_claims]
      exact (h _ sec hs).sublist List.filter_sublist

theorem lookaheadAt_kept {s : State} (h : ClaimsKept s) (x : Sighting) (k : Slot) (a : Addr) :
    ClaimsKept (s.lookaheadAt x k a) := by
  unfold State.lookaheadAt
  split
  · exact h
  · next sec hs =>
    split
    · exact h
    · next link _ =>
      split
      · exact h
      · dsimp only
        have hfit := straightClaim_fits sec.map (s.motion sec (.slot k)) (.slot k) x.lane .lookahead .predicted x.sense
          (link.distance + sec.map.approach) (.inr ⟨rfl, by simp⟩)
        cases hc : sec.claimOf k with
        | some c =>
          exact lateConflictTest_kept (claimsKept_set h _ _ (placeAgain_good (h a sec hs) hc rfl hfit (by intro e; cases e))) a _
        | none =>
          have hadd := claimsKept_set h a _ (addClaim_good (now := s.now) (h a sec hs) (fun j hj d hd => by
            obtain rfl := CarRef.slot.inj hj
            exact claimOf_none hc d hd) hfit (by intro e; cases e))
          dsimp only
          split
          · exact lateConflictTest_kept hadd a _
          · exact hadd

theorem lookahead_kept {s : State} (h : ClaimsKept s) (x : Sighting) (k : Slot) : ClaimsKept (s.lookahead x k) :=
  List.foldlRecOn (motive := ClaimsKept) _ _ h fun _ hu a _ => lookaheadAt_kept hu x k a

theorem anonSighting_kept {s : State} (h : ClaimsKept s) (x : Sighting) : ClaimsKept (s.anonSighting x) := by
  unfold State.anonSighting
  split
  · exact h
  · next sec hs =>
    dsimp only
    have hadd := claimsKept_set h x.node _ (addClaim_good (now := s.now) (c := s.anonClaim sec x) (h _ sec hs)
      (fun j hj => absurd hj (by simp [State.anonClaim, straightClaim, Claim.withClear]))
      (straightClaim_fits _ _ _ _ _ _ _ _ (.inl rfl)) (by intro e; cases e))
    split
    · split
      · exact lateConflictTest_kept hadd _ _
      · exact hadd
    · split
      · refine claimsKept_set h _ _ ?_
        rw [removeTo_claims]
        exact (h _ sec hs).sublist List.eraseP_sublist
      · exact h

theorem carSighting_kept {s : State} (h : ClaimsKept s) (x : Sighting) (k : Slot) : ClaimsKept (s.carSighting x k) := by
  have h1 : ClaimsKept ((s.inferenceClose x k).updatePosition x k (s.comparesGranted x k)) :=
    claimsKept_of_sections (inferenceClose_kept h x k) (updatePosition_arbitrated _ x k _) (updatePosition_sections _ x k _)
  unfold State.carSighting
  dsimp only
  split
  · obtain ⟨e1, e2⟩ := enterClaim_kept h1 x k
    exact readArm_kept e1 _ k e2
  · split
    · exact lookahead_kept (leave_kept h1 x k) x k
    · exact lookahead_kept h1 x k

theorem sighting_kept {s : State} (h : ClaimsKept s) (x : Sighting) : ClaimsKept (s.sighting x) := by
  unfold State.sighting
  split
  · exact anonSighting_kept h x
  · split
    · exact h
    · exact carSighting_kept h x _

end Sys2Proof.Proofs.Kept
end

section
/-! PROOFS. A change of track state, follower by follower, keeps what every step keeps (R63). -/

namespace Sys2Proof.Proofs.Kept

open Sys2Proof Sys2Proof.Machine Host

/-! ### The relation of an event's parts -/

/-- What a part of an event from s to t keeps, claims and auto-caution requests with it. -/
structure Settled (s t : State) : Prop where
  keeps : Keeps s t
  claims : ClaimsKept s → ClaimsKept t
  requests : s.cautionRequests = [] → t.cautionRequests = []

theorem Settled.refl (s : State) : Settled s s := ⟨.refl s, id, id⟩

theorem Settled.trans {s t u : State} (h : Settled s t) (g : Settled t u) : Settled s u :=
  ⟨h.keeps.trans g.keeps, g.claims ∘ h.claims, g.requests ∘ h.requests⟩

theorem Plain.crossingAllowed {s t : State} (h : Plain s t) : t.crossingAllowed = s.crossingAllowed := by
  unfold State.crossingAllowed
  rw [h.track, h.options]

theorem Plain.settled {s t : State} (h : Plain s t) : Settled s t :=
  ⟨h.keeps, fun g => claimsKept_of_same g h.sections h.crossingAllowed, fun g => h.requests.trans g⟩

/-! ### What the track state does not bear on -/

/-- What a part of a change of track state keeps, before every follower has taken its part. -/
structure Stable (s t : State) : Prop where
  queues : QueuesBounded (handed s []) → QueuesBounded (handed t [])
  registry : RegistryKept s → RegistryKept t
  cars : CarsKept s → CarsKept t
  identities : IdentitiesDistinct s → IdentitiesDistinct t

theorem Stable.refl (s : State) : Stable s s := ⟨id, id, id, id⟩

theorem Stable.trans {s t u : State} (h : Stable s t) (g : Stable t u) : Stable s u :=
  ⟨g.queues ∘ h.queues, g.registry ∘ h.registry, g.cars ∘ h.cars, g.identities ∘ h.identities⟩

theorem Keeps.stable {s t : State} (h : Keeps s t) : Stable s t := ⟨h.queues, h.registry, h.cars, h.identities⟩

theorem CarFits.forcedStop {r : Car} (h : CarFits r) : CarFits r.forcedStop where
  inputs := h.inputs
  curves := h.curves
  console := h.console
  calibration := h.calibration
  limit := h.limit
  steps := h.steps
  watch := h.watch
  motion := h.motion
  levels := ⟨Nat.zero_le _, h.levels.2⟩
  fading hl hc := ⟨Nat.zero_le _, (h.fading hl hc).2⟩
  fadeCap := h.fadeCap
  unbound := h.unbound

theorem carFollows_fits {r : Car} (t : TrackState) (h : CarFits r) : CarFits (carFollows t r) := by
  unfold carFollows
  split
  · exact CarFits.forcedStop (recompute_fits t (.of_fits h))
  · exact recompute_fits t (.of_fits h)

theorem carFollows_link (t : TrackState) (r : Car) : (carFollows t r).link = r.link ∧ (carFollows t r).binding = r.binding := by
  unfold carFollows
  split <;> exact ⟨rfl, rfl⟩

theorem beforeDenials_stable (s : State) (new : TrackState) : Stable s (s.beforeDenials new) := by
  have h := (mapCars_plain s (carFollows new) (fun r => carFollows_fits new) (fun r => (carFollows_link new r).1)
    fun r => (carFollows_link new r).2).keeps.stable
  exact ⟨fun g => ⟨g.unbound, g.notices, g.throws, g.decisions, g.sending, rfl, g.writes⟩,
    fun g => ⟨g.records, g.statuses, g.sectionLimit, g.padLimit⟩, h.cars,
    fun g => ⟨(h.identities g).bindings, (h.identities g).candidate, g.list, (h.identities g).unbound,
      (h.identities g).loading⟩⟩

theorem denyForState_stable (s : State) : Stable s s.denyForState := by
  have h := denyForState_arbitrated s
  by_cases ht : s.track = .standby
  · exact (h.keeps fun hq => by rw [TrackStates.denyForState_of_noPending (TrackStates.noPending_of_quiet hq ht)]; exact hq).stable
  · exact (h.keeps_awake fun _ => ht).stable

/-- Sections, decisions, positions, registry and throws replaced: cars and identities stand. -/
theorem replaced_stable (s : State) (se : Vector (Option Section) 15) (de : List Decision) (po : Vector Position 8)
    (no : Vector Node 15) (th : List Throw)
    (hq : QueuesBounded (handed s []) → th.length ≤ 4 ∧ de.length ≤ 16 ∧ (s.throwSending = true → th ≠ []))
    (hr : RegistryKept s → RegistryKept { s with sections := se, nodes := no }) :
    Stable s { s with sections := se, decisions := de, positions := po, nodes := no, throws := th } where
  queues h := ⟨h.unbound, h.notices, (hq h).1, (hq h).2.1, (hq h).2.2, rfl, h.writes⟩
  registry h := ⟨(hr h).records, (hr h).statuses, (hr h).sectionLimit, (hr h).padLimit⟩
  cars h := h
  identities h := ⟨h.bindings, h.candidate, h.list, h.unbound, h.loading⟩

theorem tornDown_stable (s : State) : Stable s s.tornDown := by
  refine replaced_stable s _ [] s.positions s.nodes s.throws (fun h => ⟨h.throws, Nat.zero_le _, h.sending⟩) fun h => ?_
  refine ⟨fun a => ?_, h.statuses, h.sectionLimit, h.padLimit⟩
  show _ ↔ (s.node a).role = .sect
  rw [← h.records a]
  unfold State.sectionAt
  simp

theorem arbiterFollows_stable (s : State) : Stable s s.arbiterFollows := by
  rw [arbiterFollows_eq]
  split
  · exact (denyForState_stable s).trans (tornDown_stable _)
  · exact denyForState_stable s

theorem positionsFollow_stable (s : State) : Stable s s.positionsFollow := by
  unfold State.positionsFollow
  split
  · exact replaced_stable s s.sections s.decisions _ s.nodes s.throws (fun h => ⟨h.throws, h.decisions, h.sending⟩) id
  · exact .refl s

theorem pairingFollows_plain (s : State) (old : TrackState) : Plain s (s.pairingFollows old) := by
  unfold State.pairingFollows
  split
  · exact pairingLeavesHalt_plain s
  · exact .refl s

/-- A registry entry keeps its role at an entry to STANDBY, and is UNCONFIGURED after it exactly without one (R99). -/
theorem standby_node (n : Node) (h : n.status = .unconfigured ↔ n.role = .none) :
    n.standby.role = n.role ∧ (n.standby.status = .unconfigured ↔ n.standby.role = .none) := by
  unfold Node.standby
  cases hr : n.role with
  | none => exact ⟨hr, h⟩
  | sect | gate | pad => simp

theorem sentThrows_length (s : State) (h : s.throws.length ≤ 4) : s.sentThrows.length ≤ 4 := by
  unfold State.sentThrows
  split
  · exact le_trans (List.length_take_le' _ _) h
  · exact Nat.zero_le _

theorem sentThrows_ne_nil (s : State) (h : s.throwSending = true → s.throws ≠ []) (hs : s.throwSending = true) :
    s.sentThrows ≠ [] := by
  unfold State.sentThrows
  rw [if_pos hs]
  cases ht : s.throws with
  | nil => exact absurd ht (h hs)
  | cons x l => simp

theorem busFollows_stable (s : State) : Stable s s.busFollows := by
  unfold State.busFollows
  split
  · refine replaced_stable s s.sections s.decisions s.positions _ _
      (fun h => ⟨sentThrows_length s h.throws, h.decisions, sentThrows_ne_nil s h.sending⟩) fun h => ?_
    generalize hv : (Vector.ofFn fun a : Addr => s.nodes[a].standby) = v
    have hn (a : Addr) : ({ s with sections := s.sections, nodes := v } : State).node a = (s.node a).standby := by
      simp [State.node, ← hv]
    have hrole (a : Addr) := (standby_node (s.node a) (h.statuses a)).1
    refine ⟨fun a => ?_, fun a => ?_, ?_, ?_⟩
    · rw [hn, hrole]
      exact h.records a
    · rw [hn]
      exact (standby_node (s.node a) (h.statuses a)).2
    · simp only [hn, hrole]
      exact h.sectionLimit
    · simp only [hn, hrole]
      exact h.padLimit
  · exact .refl s

theorem changeTrack_stable (s : State) (new : TrackState) : Stable s (s.changeTrack new) := by
  rw [changeTrack_eq]
  exact ((((beforeDenials_stable s new).trans (arbiterFollows_stable _)).trans (positionsFollow_stable _)).trans
    (pairingFollows_plain _ _).keeps.stable).trans (busFollows_stable _)

/-! ### The change, whole -/

/-- A change of track state that the Track State Controller makes: into STANDBY, out of it to SETTLE, or between the others,
the settle counter run down. -/
def Change (s : State) (new : TrackState) : Prop :=
  (new = .settle → s.track = .standby) ∧ (new ≠ .standby → new ≠ .settle → s.track ≠ .standby)
    ∧ (new ≠ .standby → s.track = .settle → s.rail.settleCounter = 0)

theorem stopBurst_idle_of_not_halt {s : State} (h : TrackFollowers s) (hs : s.track ≠ .halt) : s.rail.burst = .idle := by
  cases hb : s.rail.burst with
  | idle => rfl
  | active => exact absurd (h.burst hb) hs

/-- The rails as the change leaves them agree with the new state. -/
theorem beforeDenials_agrees {s : State} {new : TrackState} (h : TrackFollowers s) (hc : Change s new) :
    RailAgrees (s.beforeDenials new).rail new := by
  obtain ⟨hsettle, hother, hcount⟩ := hc
  have hagree := ((trackFollowers_iff s).mp h).1
  generalize hr : (if s.track = .halt then s.stopBurst.rail else s.rail) = r
  have hra : RailAgrees r s.track := by
    rw [← hr]
    split
    · exact stopBurst_agrees hagree
    · exact hagree
  have hidle : r.burst = .idle := by
    rw [← hr]
    split
    · exact stopBurst_burst s
    · next hh => exact stopBurst_idle_of_not_halt h hh
  have hcounter : s.track ≠ .settle ∨ s.rail.settleCounter = 0 → r.settleCounter = 0 := by
    intro e
    rcases e with e | e
    · exact hra.counter e
    · rw [← hr]
      split
      · rw [stopBurst_eq]
        split <;> exact e
      · exact e
  have hburst {t : TrackState} : r.burst = .active → t = .halt := fun e => by rw [hidle] at e; exact nomatch e
  have same (hs : s.track ≠ .standby) (hn : new ≠ .standby) : RailAgrees r new := by
    refine ⟨hra.power.trans ⟨fun _ => hn, fun _ => hs⟩, hra.starts, fun _ => hcounter ?_, hburst⟩
    by_cases e : s.track = .settle
    · exact .inr (hcount hn e)
    · exact .inl e
  unfold State.beforeDenials
  dsimp only
  rw [hr]
  cases hnew : new with
  | settle =>
    subst hnew
    exact ⟨⟨fun _ => by decide, fun _ => rfl⟩, rfl, fun e => absurd rfl e, hburst⟩
  | standby =>
    subst hnew
    exact ⟨⟨fun e => (nomatch e), fun e => absurd rfl e⟩, rfl, fun _ => rfl, hburst⟩
  | halt | run | caution =>
    subst hnew
    exact same (hother (by decide) (by decide)) (by decide)

theorem arbiterFollows_frame (d : State) : d.arbiterFollows.rail = d.rail ∧ d.arbiterFollows.track = d.track
    ∧ d.arbiterFollows.pairing = d.pairing ∧ d.arbiterFollows.cautionRequests = d.cautionRequests := by
  obtain ⟨hd, hq⟩ := denyForState_denied d
  have hf := hd.frame
  rw [arbiterFollows_eq]
  generalize d.denyForState = u at hf hq
  have h1 : u.rail = d.rail ∧ u.track = d.track ∧ u.pairing = d.pairing ∧ u.cautionRequests = d.cautionRequests :=
    ⟨by rw [hf], by rw [hf], by rw [hf], hq⟩
  split
  · exact h1
  · exact h1

theorem positionsFollow_frame (s : State) : s.positionsFollow.rail = s.rail ∧ s.positionsFollow.track = s.track
    ∧ s.positionsFollow.pairing = s.pairing ∧ s.positionsFollow.cautionRequests = s.cautionRequests := by
  unfold State.positionsFollow
  split <;> exact ⟨rfl, rfl, rfl, rfl⟩

/-- The state after the denials, the teardown and the positions of a change: rails and pairing as before the denials. -/
theorem afterDenials_frame (s : State) (new : TrackState) :
    ((s.beforeDenials new).arbiterFollows.positionsFollow).rail = (s.beforeDenials new).rail
      ∧ ((s.beforeDenials new).arbiterFollows.positionsFollow).track = new
      ∧ ((s.beforeDenials new).arbiterFollows.positionsFollow).pairing = s.pairing
      ∧ ((s.beforeDenials new).arbiterFollows.positionsFollow).cautionRequests = s.cautionRequests := by
  obtain ⟨p1, p2, p3, p4⟩ := positionsFollow_frame (s.beforeDenials new).arbiterFollows
  obtain ⟨a1, a2, a3, a4⟩ := arbiterFollows_frame (s.beforeDenials new)
  exact ⟨p1.trans a1, p2.trans a2, p3.trans a3, p4.trans a4⟩

theorem busFollows_frame (s : State) : s.busFollows.rail = s.rail ∧ s.busFollows.track = s.track
    ∧ s.busFollows.pairing = s.pairing ∧ s.busFollows.sections = s.sections ∧ s.busFollows.decisions = s.decisions
    ∧ s.busFollows.positions = s.positions ∧ s.busFollows.cautionRequests = s.cautionRequests
    ∧ s.busFollows.options = s.options := by
  unfold State.busFollows
  split <;> exact ⟨rfl, rfl, rfl, rfl, rfl, rfl, rfl, rfl⟩

/-- The pairing's part: rails that agree still do, and where the state left was HALT no pairing stands (R168). -/
theorem pairingFollows_ends {s : State} {old t : TrackState} (h : RailAgrees s.rail t)
    (hp : old ≠ .halt → s.pairing.state = .idle) :
    RailAgrees (s.pairingFollows old).rail t ∧ (s.pairingFollows old).pairing.state = .idle := by
  unfold State.pairingFollows State.pairingLeavesHalt
  split
  · split
    · next hi => exact ⟨h, hi⟩
    · rw [endPairing_eq]
      refine ⟨?_, rfl⟩
      dsimp only
      split
      · exact stopBurst_agrees h
      · exact h
  · next ho => exact ⟨h, hp ho⟩

theorem changeTrack_track (s : State) (new : TrackState) : (s.changeTrack new).track = new := by
  rw [changeTrack_eq, (busFollows_frame _).2.1, (pairingFollows_plain _ _).track]
  exact (afterDenials_frame s new).2.1

theorem changeTrack_followers {s : State} {new : TrackState} (hc : Change s new) (h : TrackFollowers s) :
    TrackFollowers (s.changeTrack new) := by
  obtain ⟨hrail, -, hpair, -⟩ := afterDenials_frame s new
  have hagree : RailAgrees ((s.beforeDenials new).arbiterFollows.positionsFollow).rail new := by
    rw [hrail]
    exact beforeDenials_agrees h hc
  have hidle : s.track ≠ .halt → ((s.beforeDenials new).arbiterFollows.positionsFollow).pairing.state = .idle := by
    intro ho
    rw [hpair]
    exact not_not.mp fun hp => ho (h.pairing hp)
  obtain ⟨h1, h2⟩ := pairingFollows_ends hagree hidle
  refine (trackFollowers_iff _).mpr ?_
  rw [changeTrack_track, changeTrack_eq, (busFollows_frame _).1, (busFollows_frame _).2.2.1]
  exact ⟨h1, fun hp => absurd h2 hp⟩

/-- The sections, decisions and positions of a track gone to STANDBY (R118, R126, R155). -/
theorem changeTrack_standby_quiet (s : State) :
    (∀ a sec, (s.changeTrack .standby).sectionAt a = some sec → sec.claims = [])
      ∧ (s.changeTrack .standby).decisions = [] ∧ ∀ k, (s.changeTrack .standby).position k = Position.absent := by
  have ht : (s.beforeDenials .standby).arbiterFollows.track = .standby := (arbiterFollows_frame _).2.1
  have hs := (busFollows_frame (((s.beforeDenials .standby).arbiterFollows.positionsFollow).pairingFollows s.track)).2.2.2
  obtain ⟨hsec, hdec, hpos, -, -⟩ := hs
  have hp := pairingFollows_plain ((s.beforeDenials .standby).arbiterFollows.positionsFollow) s.track
  rw [← changeTrack_eq, hp.sections] at hsec
  rw [← changeTrack_eq, hp.decisions] at hdec
  rw [← changeTrack_eq, hp.positions] at hpos
  have hfollow : (s.beforeDenials .standby).arbiterFollows.positionsFollow
      = { (s.beforeDenials .standby).denyForState.tornDown with positions := Vector.replicate 8 Position.absent } := by
    have hu : (s.beforeDenials .standby).arbiterFollows = (s.beforeDenials .standby).denyForState.tornDown := by
      rw [arbiterFollows_eq]
      exact if_pos rfl
    unfold State.positionsFollow
    rw [if_pos ht, hu]
  rw [hfollow] at hsec hdec hpos
  refine ⟨fun a sec h => ?_, hdec, fun k => ?_⟩
  · unfold State.sectionAt at h
    rw [hsec] at h
    simp only [State.tornDown, Fin.getElem_fin, Vector.getElem_ofFn, Option.map_eq_some_iff] at h
    obtain ⟨x, -, rfl⟩ := h
    rfl
  · unfold State.position
    rw [hpos]
    simp

theorem changeTrack_quiet (s : State) (new : TrackState) : StandbyQuiet (s.changeTrack new) := by
  intro ht
  rw [changeTrack_track] at ht
  subst ht
  exact changeTrack_standby_quiet s

theorem changeTrack_claims {s : State} (new : TrackState) (h : ClaimsKept s) : ClaimsKept (s.changeTrack new) := by
  by_cases hn : new = .standby
  · subst hn
    intro a sec hs
    rw [(changeTrack_standby_quiet s).1 a sec hs]
    exact .nil _
  · rw [changeTrack_other s new hn]
    exact (pairingFollows_plain _ _).settled.claims (denyForState_kept (s := s.beforeDenials new) h.lists)

theorem changeTrack_requests (s : State) (new : TrackState) : (s.changeTrack new).cautionRequests = s.cautionRequests := by
  rw [changeTrack_eq, (busFollows_frame _).2.2.2.2.2.2.1, (pairingFollows_plain _ _).requests]
  exact (afterDenials_frame s new).2.2.2

theorem changeTrack_settled {s : State} {new : TrackState} (hc : Change s new) : Settled s (s.changeTrack new) where
  keeps := ⟨changeTrack_followers hc, (changeTrack_stable s new).queues, (changeTrack_stable s new).registry,
    fun _ => changeTrack_quiet s new, (changeTrack_stable s new).cars, (changeTrack_stable s new).identities⟩
  claims := changeTrack_claims new
  requests h := (changeTrack_requests s new).trans h

theorem change_standby (s : State) : Change s .standby :=
  ⟨fun h => (nomatch h), fun h => absurd rfl h, fun h => absurd rfl h⟩

/-- A change between the states in which rail power is on (R67 to R69). -/
theorem change_awake {s : State} {new : TrackState} (hn : new ≠ .settle) (hs : s.track ≠ .standby)
    (hc : s.track = .settle → s.rail.settleCounter = 0) : Change s new :=
  ⟨fun h => absurd h hn, fun _ _ => hs, fun _ => hc⟩

theorem change_wake {s : State} (hs : s.track = .standby) : Change s .settle :=
  ⟨fun _ => hs, fun _ h => absurd rfl h, fun _ h => by rw [hs] at h; exact nomatch h⟩

/-! ### Wakes, cautions and sleep -/

theorem note_plain (s : State) (c : Option CautionCause) (w : Option WakeCause) (n : Bool) :
    Plain s { s with cautionCause := c, lastWake := w, railFaultNote := n } := {}

theorem wakeUp_settled {s : State} (c : WakeCause) (hs : s.track = .standby) : Settled s (s.wakeUp c) :=
  (changeTrack_settled (change_wake hs)).trans (note_plain (s.changeTrack .settle) _ (some c) false).settled

theorem wakeRequest_settled (s : State) (k : Slot) : Settled s (s.wakeRequest k) := by
  unfold State.wakeRequest
  split
  · next h => exact wakeUp_settled _ h.1
  · exact .refl s

theorem enterCaution_settled {s : State} (c : CautionCause) (hs : s.track = .run) : Settled s (s.enterCaution c) :=
  (changeTrack_settled (change_awake (by decide) (by rw [hs]; decide) fun h => by rw [hs] at h; exact nomatch h)).trans
    (note_plain (s.changeTrack .caution) (some c) _ _).settled

theorem takeCaution_settled (s : State) (c : CautionSource) : Settled s (s.takeCaution c) := by
  unfold State.takeCaution
  split
  · next h => exact enterCaution_settled _ h.1
  · exact .refl s

/-- At the end of an event its auto-caution requests are taken, and none waits (R72). -/
theorem takeCautionRequests_settled (s : State) : Settled s s.takeCautionRequests := by
  have h (u : State) : Settled s u → Settled s (handed u []) := fun g =>
    ⟨⟨fun x => ⟨(g.keeps.followers x).power, (g.keeps.followers x).starts, (g.keeps.followers x).counter,
        (g.keeps.followers x).burst, (g.keeps.followers x).pairing⟩, g.keeps.queues, fun x =>
        ⟨(g.keeps.registry x).records, (g.keeps.registry x).statuses, (g.keeps.registry x).sectionLimit,
          (g.keeps.registry x).padLimit⟩, g.keeps.quiet, g.keeps.cars, fun x =>
        ⟨(g.keeps.identities x).bindings, (g.keeps.identities x).candidate, (g.keeps.identities x).list,
          (g.keeps.identities x).unbound, (g.keeps.identities x).loading⟩⟩,
      g.claims, fun _ => rfl⟩
  exact h _ (List.foldlRecOn (motive := fun u => Settled s u) _ _ (.refl s) fun u hu c _ => hu.trans (takeCaution_settled u c))

theorem takeCautionRequests_none (s : State) : s.takeCautionRequests.cautionRequests = [] := rfl

/-- SLEEP in HALT or SETTLE (R65, R66). -/
theorem goToSleep_settled (s : State) : Settled s s.goToSleep := by
  have h := changeTrack_settled (change_standby s)
  unfold State.goToSleep
  split
  · exact h.trans (wakeUp_settled _ (changeTrack_track s .standby))
  · exact h

theorem railFault_settled (s : State) : Settled s s.railFault := by
  unfold State.railFault
  split
  · exact .refl s
  · exact (changeTrack_settled (change_standby s)).trans
      ((note_plain (s.changeTrack .standby) _ _ true).trans (raise_plain _ _)).settled

end Sys2Proof.Proofs.Kept
end

section
/-! PROOFS. What the operations of the Node Bus Interface, the sections and the decision queue keep. -/

namespace Sys2Proof.Proofs.Kept

open Sys2Proof Sys2Proof.Machine Host

/-! ### Before the auto-caution requests of an event are taken -/

/-- What a part of an event keeps that may hand auto-caution requests. -/
structure Passed (s t : State) : Prop where
  keeps : Keeps s t
  claims : ClaimsKept s → ClaimsKept t

theorem Passed.refl (s : State) : Passed s s := ⟨.refl s, id⟩

theorem Passed.trans {s t u : State} (h : Passed s t) (g : Passed t u) : Passed s u :=
  ⟨h.keeps.trans g.keeps, g.claims ∘ h.claims⟩

theorem Settled.passed {s t : State} (h : Settled s t) : Passed s t := ⟨h.keeps, h.claims⟩

theorem Plain.passed {s t : State} (h : Plain s t) : Passed s t := h.settled.passed

/-- The auto-caution requests of an event are taken at its end. -/
theorem Passed.taken {s t : State} (h : Passed s t) : Settled s t.takeCautionRequests :=
  ⟨h.keeps.trans (takeCautionRequests_settled t).keeps, (takeCautionRequests_settled t).claims ∘ h.claims, fun _ => rfl⟩

/-- An operation of the arbiter that is not taken in STANDBY. -/
theorem Arbitrated.passed_awake {s t : State} (h : Arbitrated s t) (hs : s.track ≠ .standby)
    (hc : ClaimsKept s → ClaimsKept t) : Passed s t := ⟨h.keeps_awake fun _ => hs, hc⟩

/-- An operation of the arbiter that finds nothing to do in STANDBY. -/
theorem Arbitrated.passed {s t : State} (h : Arbitrated s t) (hq : StandbyQuiet s → s.track = .standby → t = s)
    (hc : ClaimsKept s → ClaimsKept t) : Passed s t := by
  refine ⟨h.keeps fun hs => ?_, hc⟩
  by_cases ht : s.track = .standby
  · rw [hq hs ht]
    exact hs
  · exact fun e => absurd (h.track.symm.trans e) ht

/-! ### Section records -/

/-- Section records change, their claim lists standing. -/
theorem sections_settled (s : State) (v : Vector (Option Section) 15)
    (h : ∀ a : Addr, v[a].map (fun x => x.claims) = (s.sectionAt a).map fun x => x.claims) : Settled s { s with sections := v } := by
  have hat (a : Addr) : ({ s with sections := v } : State).sectionAt a = v[a] := rfl
  have claims_at {a : Addr} {sec : Section} (hs : ({ s with sections := v } : State).sectionAt a = some sec) :
      ∃ sec0, s.sectionAt a = some sec0 ∧ sec0.claims = sec.claims := by
    rw [hat] at hs
    have e := h a
    rw [hs] at e
    exact Option.map_eq_some_iff.mp e.symm
  exact {
    keeps := ⟨fun g => ⟨g.power, g.starts, g.counter, g.burst, g.pairing⟩,
      fun g => ⟨g.unbound, g.notices, g.throws, g.decisions, g.sending, rfl, g.writes⟩,
      fun g => ⟨fun a => by
        refine Iff.trans ?_ (g.records a)
        have e := congrArg Option.isSome (h a)
        rw [Option.isSome_map, Option.isSome_map] at e
        rw [hat, e], g.statuses, g.sectionLimit, g.padLimit⟩,
      fun g ht => ⟨fun a sec hs => by
        obtain ⟨sec0, hs0, hc⟩ := claims_at hs
        exact hc.symm.trans ((g ht).1 a sec0 hs0), (g ht).2⟩,
      fun g k => g k, fun g => ⟨g.bindings, g.candidate, g.list, g.unbound, g.loading⟩⟩
    claims := fun g a sec hs => by
      obtain ⟨sec0, hs0, hc⟩ := claims_at hs
      rw [← hc]
      exact g a sec0 hs0
    requests := id }

theorem setSection_settled {s : State} {a : Addr} {sec sec' : Section} (hs : s.sectionAt a = some sec)
    (hc : sec'.claims = sec.claims) : Settled s (s.setSection a (some sec')) := by
  refine sections_settled s _ fun b => ?_
  have e := setSection_sectionAt s a b (some sec')
  unfold State.sectionAt State.setSection at e
  rw [e]
  split
  · next hb => rw [hb, hs, Option.map_some, Option.map_some, hc]
  · rfl

theorem modifySection_settled (s : State) (a : Addr) {f : Section → Section} (hc : ∀ sec, (f sec).claims = sec.claims) :
    Settled s (s.modifySection a f) := by
  refine sections_settled s _ fun b => ?_
  have e := modifySection_sectionAt s a b f
  unfold State.sectionAt State.modifySection State.setSection at e
  rw [e]
  split
  · next hb =>
    rw [hb, Option.map_map]
    exact congrArg (Option.map · (s.sectionAt a)) (funext hc)
  · rfl

theorem mapSections_settled (s : State) {f : Section → Section} (hc : ∀ sec, (f sec).claims = sec.claims) :
    Settled s (s.mapSections f) := by
  refine sections_settled s _ fun b => ?_
  simp only [Fin.getElem_fin, Vector.getElem_ofFn, Option.map_map]
  exact congrArg (Option.map · (s.sectionAt b)) (funext hc)

/-- Records leave the decision queue. -/
theorem decisions_settled (s : State) (l : List Decision) (h : l.length ≤ s.decisions.length) :
    Settled s { s with decisions := l } where
  keeps := ⟨fun g => ⟨g.power, g.starts, g.counter, g.burst, g.pairing⟩,
    fun g => ⟨g.unbound, g.notices, g.throws, le_trans h g.decisions, g.sending, rfl, g.writes⟩,
    fun g => ⟨g.records, g.statuses, g.sectionLimit, g.padLimit⟩,
    fun g ht => ⟨(g ht).1, List.length_eq_zero_iff.mp (Nat.le_zero.mp (by simpa [(g ht).2.1] using h)), (g ht).2.2⟩,
    fun g k => g k, fun g => ⟨g.bindings, g.candidate, g.list, g.unbound, g.loading⟩⟩
  claims g := g
  requests := id

theorem newRace_settled (s : State) : Settled s s.newRace := by
  unfold State.newRace
  split
  · have h := mapSections_settled s (f := Section.newRace s.pointerByMode) fun _ => rfl
    exact (h.trans (decisions_settled _ [] (Nat.zero_le _))).trans (respond_plain _ _ _).settled
  · exact (respond_plain s _ _).settled

theorem readDecision_settled (s : State) : Settled s s.readDecision := by
  unfold State.readDecision
  split
  · exact (respond_plain s _ _).settled
  · next d rest hd => exact (decisions_settled s rest (by simp [hd])).trans (respond_plain _ _ _).settled

theorem clearCounters_settled (s : State) : Settled s s.clearCounters := by
  have counters (u : State) : Plain u { u with
      handsetErrors := 0, handsetDuplicates := 0, nodeErrors := 0, strayReports := 0, decisionOverflows := 0 } := {}
  have ignored (u : State) : Plain u { u with pairing := { u.pairing with ignored := 0 } } :=
    pairing_same_plain u _ rfl rfl rfl
  have h := mapSections_settled s (f := fun sec => { sec with lapseCount := 0, overflowCount := 0 }) fun _ => rfl
  exact ((h.trans (counters _).settled).trans (ignored _).settled).trans (respond_plain _ _ _).settled

theorem setSectionMap_settled (s : State) (q : SectionReq) : Settled s (s.setSectionMap q) := by
  unfold State.setSectionMap
  split
  · exact (respond_plain s _ _).settled
  · next sec hs =>
    have h := setSection_settled (sec' := { sec with map := q.apply sec.map }) hs rfl
    exact h.trans (respond_plain _ _ _).settled

theorem overflowExpires_settled (s : State) (a : Addr) (now : TrackTime) :
    Settled s (s.modifySection a (Section.overflowExpires now)) := by
  refine modifySection_settled s a fun sec => ?_
  unfold Section.overflowExpires
  split <;> rfl

/-! ### Registry entries -/

theorem setNode_node (s : State) (a b : Addr) (n : Node) : (s.setNode a n).node b = if b = a then n else s.node b := by
  by_cases h : b = a
  · subst h
    simp [State.node]
  · simp [State.node, h, Fin.val_ne_of_ne (Ne.symm h)]

/-- An entry changes, its role standing and its status as the role asks. -/
theorem setNode_plain (s : State) (a : Addr) (n : Node) (hr : n.role = (s.node a).role)
    (hs : ((s.node a).status = .unconfigured ↔ (s.node a).role = .none) → (n.status = .unconfigured ↔ n.role = .none)) :
    Plain s (s.setNode a n) where
  registry h := by
    have hrole (b : Addr) : ((s.setNode a n).node b).role = (s.node b).role := by
      rw [setNode_node]
      split
      · next e => rw [e, hr]
      · rfl
    refine ⟨fun b => ?_, fun b => ?_, ?_, ?_⟩
    · rw [hrole]
      exact h.records b
    · rw [setNode_node]
      split
      · exact hs (h.statuses a)
      · exact h.statuses b
    · simp only [hrole]
      exact h.sectionLimit
    · simp only [hrole]
      exact h.padLimit

/-- An entry of some role takes another status than UNCONFIGURED (R98). -/
theorem updateNode_plain (s : State) (a : Addr) (n : Node) (hr : n.role = (s.node a).role)
    (ho : (s.node a).status ≠ .unconfigured) (hn : n.status ≠ .unconfigured) : Plain s (s.updateNode a n) := by
  have h : Plain s (s.setNode a n) := setNode_plain s a n hr fun h => by
    rw [hr, ← h]
    exact ⟨fun e => absurd e hn, fun e => absurd e ho⟩
  exact (h.trans (raiseIf_plain _ _ _)).trans (padStatus_plain _ _ _ _)

theorem hello_plain (s : State) (a : Addr) (k : NodeKind) (h : (s.node a).status ≠ .unconfigured) :
    Plain s (s.hello a k) := by
  refine updateNode_plain s a _ rfl h ?_
  dsimp only
  split <;> decide

theorem heardOnly_plain (s : State) (a : Addr) : Plain s (s.heardOnly a) := setNode_plain s a _ rfl id

theorem closeNow_passed (s : State) (a : Addr) : Passed s (s.closeNow a) := by
  refine ⟨(closeNow_arbitrated s a).keeps fun hq => ?_, fun h => closeNow_kept h a⟩
  by_cases ht : s.track = .standby
  · have hd := TrackStates.denySection_of_noPending (TrackStates.noPending_of_quiet hq ht) .closed a
    unfold State.closeNow
    split
    · exact hq
    · split
      · exact hq
      · rw [hd]
        exact (modifySection_settled s a
          (f := fun sec => { sec with admin := if sec.busy then .closing else .closed }) fun _ => rfl).keeps.quiet hq
  · exact fun e => absurd ((closeNow_arbitrated s a).track.symm.trans e) ht

theorem requestCaution_passed (s : State) (c : CautionSource) : Passed s (s.requestCaution c) :=
  ⟨(requestCaution_arbitrated s c).keeps fun h => h, fun h => h⟩

theorem faultReport_passed (s : State) (a : Addr) (k : NodeFault) : Passed s (s.faultReport a k) := by
  have h := (setNode_plain s a { s.node a with fault := some k } rfl id).trans (raise_plain _ .fault)
  unfold State.faultReport
  dsimp only
  split
  · exact (h.passed.trans (closeNow_passed _ a)).trans (requestCaution_passed _ _)
  · exact h.passed

theorem padStatus_node (s : State) (r : Role) (o n : NodeStatus) : (s.padStatus r o n).node = s.node := by
  unfold State.padStatus
  split
  · rw [endPairing_eq]
    rfl
  · rfl

theorem updateNode_node (s : State) (a : Addr) (n : Node) : (s.updateNode a n).node a = n := by
  have h : ((s.setNode a n).raiseIf (raisesNode (s.node a).status n.status) .node).node a = n := by
    unfold State.raiseIf
    split
    · exact (setNode_node s a a n).trans (if_pos rfl)
    · exact (setNode_node s a a n).trans (if_pos rfl)
  unfold State.updateNode
  dsimp only
  rw [padStatus_node]
  exact h

theorem report_passed (s : State) (a : Addr) (m : NodeMessage) (hs : s.track ≠ .standby)
    (hn : (s.node a).status ≠ .unconfigured) : Passed s (s.report a m) := by
  have h := updateNode_plain s a { s.node a with status := .live, lastHeard := some s.now } rfl hn (by simp)
  have hlive := updateNode_node s a { s.node a with status := .live, lastHeard := some s.now }
  have htrack := h.track
  unfold State.report
  dsimp only
  generalize s.updateNode a { s.node a with status := .live, lastHeard := some s.now } = u at h hlive htrack
  refine h.passed.trans ?_
  split
  · exact (hello_plain u a _ (by rw [hlive]; simp)).passed
  · exact (sighting_arbitrated u _).passed_awake (by rw [htrack]; exact hs) fun g => sighting_kept g _
  · exact (padReport_plain u _ _).passed
  · exact faultReport_passed u a _

theorem nodeMessage_passed (s : State) (a : Addr) (m : NodeMessage) : Passed s (s.nodeMessage a m) := by
  have stray (u : State) (n : Nat) : Plain u { u with strayReports := n } := {}
  unfold State.nodeMessage
  dsimp only
  split
  · exact .refl s
  · next hs =>
    split
    · exact ((heardOnly_plain s a).trans (stray _ _)).passed
    · next hn =>
      have hst : (s.node a).status ≠ .unconfigured := fun e => hn (.inl e)
      split
      · exact (hello_plain s a _ hst).passed
      · split
        · exact (heardOnly_plain s a).passed
        · exact report_passed s a _ hs hst

theorem busFrame_settled (s : State) (bytes : List Byte) : Settled s (s.busFrame bytes) := by
  have errors (n : Nat) : Plain s { s with nodeErrors := n } := {}
  unfold State.busFrame
  split
  · exact (errors _).settled
  · exact .refl s
  · exact (nodeMessage_passed s _ _).taken

theorem goSilent_plain (s : State) (a : Addr) (h : (s.node a).silenceDue s.now = true) : Plain s (s.goSilent a) := by
  have hl : (s.node a).status = .live := by
    unfold Node.silenceDue at h
    exact of_decide_eq_true (Bool.and_eq_true_iff.mp h).1
  exact updateNode_plain s a _ rfl (by rw [hl]; decide) (by simp)

theorem openSection_settled (s : State) (a : Addr) : Settled s (s.openSection a) := by
  unfold State.openSection
  split
  · exact (respond_plain s _ _).settled
  · next sec hs =>
    have h := setSection_settled (sec' := { sec with admin := .opened }) hs rfl
    have clear (u : State) (hu : u.node a = s.node a) : Plain u (u.setNode a { s.node a with fault := none }) :=
      setNode_plain u a _ (by rw [hu]) (by rw [hu]; exact id)
    exact (h.trans (clear (s.setSection a (some { sec with admin := .opened })) rfl).settled).trans (respond_plain _ _ _).settled

theorem closeHold_claims (sec : Section) : sec.closeHold.claims = sec.claims := by
  unfold Section.closeHold
  split <;> rfl

theorem closeSection_settled (s : State) (q : CloseReq) : Settled s (s.closeSection q) := by
  unfold State.closeSection
  split
  · exact (respond_plain s _ _).settled
  · next sec hs =>
    split
    · exact (setSection_settled hs (closeHold_claims sec)).trans (respond_plain _ _ _).settled
    · exact (closeNow_passed s _).taken.trans (respond_plain _ _ _).settled

/-! ### Throws, lapses and decisions -/

theorem throws_plain (s : State) (l : List Throw) (b : Bool)
    (h : QueuesBounded (handed s []) → l.length ≤ 4 ∧ (b = true → l ≠ [])) :
    Plain s { s with throws := l, throwSending := b } where
  queues g := ⟨g.unbound, g.notices, (h g).1, g.decisions, (h g).2, rfl, g.writes⟩

theorem lapse_settled (s : State) (a : Addr) (place : Nat) :
    Settled s (if s.lapseDue a place then (s.lapseClaim a place).takeCautionRequests else s) := by
  split
  · next hd =>
    refine ((lapseClaim_arbitrated s a place).passed (fun hq ht => ?_) fun h => lapseClaim_kept h a place).taken
    unfold State.lapseDue at hd
    split at hd
    · exact nomatch hd
    · next sec hs =>
      rw [(hq ht).1 a sec hs] at hd
      exact nomatch hd
  · exact .refl s

theorem decide_settled (s : State) (a : Addr) (k : Slot) :
    Settled s (if s.decideDue a k then (s.decideRequest a k).takeCautionRequests else s) := by
  split
  · next hd =>
    refine ((decideRequest_arbitrated s a k).passed (fun hq ht => ?_) fun h => decideRequest_kept h a k).taken
    unfold State.decideDue at hd
    split at hd
    · exact nomatch hd
    · next sec hs =>
      unfold Section.claimOf at hd
      rw [(hq ht).1 a sec hs] at hd
      exact nomatch hd
  · exact .refl s

/-! ### A change of role (R97, R100) -/

/-- The entries that hold a role. -/
def roleCount (s : State) (r : Role) : Nat := (allAddrs.filter fun b => decide ((s.node b).role = r)).length

theorem roleCount_le_succ_others (s : State) (a : Addr) (r : Role) : roleCount s r ≤ s.othersWith a r + 1 := by
  have hn : (allAddrs.filter fun b => decide ((s.node b).role = r)).Nodup := List.Nodup.filter _ (by decide)
  have h := List.le_length_erase (a := a) (l := allAddrs.filter fun b => decide ((s.node b).role = r))
  rw [hn.erase_eq_filter, List.filter_filter] at h
  unfold roleCount State.othersWith
  omega

theorem others_le_roleCount (s : State) (a : Addr) (r : Role) : s.othersWith a r ≤ roleCount s r := by
  unfold roleCount State.othersWith
  rw [← List.filter_filter]
  exact List.length_filter_le _ _

theorem roleCount_of_others (s : State) (a : Addr) (r : Role) (h : (s.node a).role ≠ r) : roleCount s r = s.othersWith a r := by
  unfold roleCount State.othersWith
  refine congrArg List.length (List.filter_congr fun b _ => ?_)
  by_cases hb : b = a
  · subst hb
    simp [h]
  · simp [hb]

/-- An entry's change leaves the others. -/
theorem othersWith_setNode (s t : State) (a : Addr) (n : Node) (h : t.node = (s.setNode a n).node) (r : Role) :
    t.othersWith a r = s.othersWith a r := by
  unfold State.othersWith
  refine congrArg List.length (List.filter_congr fun b _ => ?_)
  rw [h, setNode_node]
  by_cases hb : b = a
  · simp [hb]
  · rw [if_neg hb]

/-- What the parts of a change of role keep: all but that registry and section records agree, which the whole restores. -/
structure Reroled (s t : State) : Prop where
  followers : TrackFollowers s → TrackFollowers t
  queues : QueuesBounded (handed s []) → QueuesBounded (handed t [])
  quiet : StandbyQuiet s → StandbyQuiet t
  cars : CarsKept s → CarsKept t
  identities : IdentitiesDistinct s → IdentitiesDistinct t
  claims : ClaimsKept s → ClaimsKept t
  requests : t.cautionRequests = s.cautionRequests

theorem Reroled.refl (s : State) : Reroled s s := ⟨id, id, id, id, id, id, rfl⟩

theorem Reroled.trans {s t u : State} (h : Reroled s t) (g : Reroled t u) : Reroled s u :=
  ⟨g.followers ∘ h.followers, g.queues ∘ h.queues, g.quiet ∘ h.quiet, g.cars ∘ h.cars, g.identities ∘ h.identities,
    g.claims ∘ h.claims, g.requests.trans h.requests⟩

theorem Reroled.settled {s t : State} (h : Reroled s t) (hr : RegistryKept s → RegistryKept t) : Settled s t :=
  ⟨⟨h.followers, h.queues, hr, h.quiet, h.cars, h.identities⟩, h.claims, fun g => h.requests.trans g⟩

theorem setNode_reroled (s : State) (a : Addr) (n : Node) : Reroled s (s.setNode a n) :=
  ⟨fun h => ⟨h.power, h.starts, h.counter, h.burst, h.pairing⟩,
    fun h => ⟨h.unbound, h.notices, h.throws, h.decisions, h.sending, rfl, h.writes⟩, id, id,
    fun h => ⟨h.bindings, h.candidate, h.list, h.unbound, h.loading⟩, id, rfl⟩

/-- A section record goes, or is made with no claims. -/
theorem setSection_reroled (s : State) (a : Addr) (o : Option Section) (h : ∀ sec ∈ o, sec.claims = []) :
    Reroled s (s.setSection a o) where
  followers h := ⟨h.power, h.starts, h.counter, h.burst, h.pairing⟩
  queues h := ⟨h.unbound, h.notices, h.throws, h.decisions, h.sending, rfl, h.writes⟩
  quiet hq ht := by
    refine ⟨fun b sec hs => ?_, (hq ht).2⟩
    rw [setSection_sectionAt] at hs
    split at hs
    · exact h sec hs
    · exact (hq ht).1 b sec hs
  cars := id
  identities h := ⟨h.bindings, h.candidate, h.list, h.unbound, h.loading⟩
  claims hc b sec hs := by
    rw [setSection_sectionAt] at hs
    split at hs
    · rw [h sec hs]
      exact .nil _
    · exact hc b sec hs
  requests := rfl

theorem recordDenial_requests (s : State) (a : Addr) (k : Slot) (r : DenyReason) (x : Option CarRef) :
    (s.recordDenial a k r x).cautionRequests = s.cautionRequests := by
  have h (d : Decision) : (s.writeDecision d).cautionRequests = s.cautionRequests := by
    unfold State.writeDecision
    split <;> rfl
  unfold State.recordDenial
  dsimp only
  split <;> exact h _

/-- The requests of a section refused, each once, its claims left (R126, R146). -/
theorem refused_sections (a : Addr) (r : DenyReason) : ∀ (l : List Slot) (s : State),
    (l.foldl (fun s k => s.recordDenial a k r none) s).sections = s.sections
      ∧ (l.foldl (fun s k => s.recordDenial a k r none) s).cautionRequests = s.cautionRequests
  | [], _ => ⟨rfl, rfl⟩
  | k :: l, s => by
    obtain ⟨h1, h2⟩ := refused_sections a r l (s.recordDenial a k r none)
    exact ⟨h1.trans (recordDenial_sections ..), h2.trans (recordDenial_requests ..)⟩

theorem refused_arbitrated (s : State) (a : Addr) (r : DenyReason) (l : List Slot) :
    Arbitrated s (l.foldl (fun s k => s.recordDenial a k r none) s) :=
  Arbitrated.foldl (fun s k => recordDenial_arbitrated s a k r none) l s

theorem dropSection_reroled (s : State) (a : Addr) : Reroled s (s.dropSection a) := by
  unfold State.dropSection
  cases hs : s.sectionAt a with
  | none => exact .refl s
  | some sec =>
    refine Reroled.trans ?_ (setSection_reroled _ a none fun _ h => (nomatch h))
    have ha := refused_arbitrated s a .closed sec.pendingSlots
    obtain ⟨h1, h2⟩ := refused_sections a .closed sec.pendingSlots s
    have hk := ha.passed (fun hq ht => by
      rw [TrackStates.pendingSlots_of_none_pending (TrackStates.noPending_of_quiet hq ht a sec hs)]
      rfl) fun hc => claimsKept_of_sections hc ha h1
    exact ⟨hk.keeps.followers, hk.keeps.queues, hk.keeps.quiet, hk.keeps.cars, hk.keeps.identities, hk.claims, h2⟩

theorem dropThrowsTo_plain (s : State) (a : Addr) : Plain s (s.dropThrowsTo a) := by
  refine throws_plain s _ s.throwSending fun h => ⟨?_, fun hs => ?_⟩
  · have h1 := List.length_filter_le (fun t : Throw => t.dest != a) (s.throws.drop s.sentThrows.length)
    have h2 : s.sentThrows.length ≤ s.throws.length := by
      unfold State.sentThrows
      split
      · exact List.length_take_le' _ _
      · exact Nat.zero_le _
    have h3 : s.throws.length ≤ 4 := h.throws
    rw [List.length_append]
    rw [List.length_drop] at h1
    omega
  · exact List.append_ne_nil_of_left_ne_nil (sentThrows_ne_nil s h.sending hs) _

theorem Plain.reroled {s t : State} (h : Plain s t) : Reroled s t :=
  ⟨h.keeps.followers, h.keeps.queues, h.keeps.quiet, h.keeps.cars, h.keeps.identities, h.settled.claims, h.requests⟩

theorem dropSection_sectionAt (s : State) (a b : Addr) :
    (s.dropSection a).sectionAt b = if b = a then none else s.sectionAt b := by
  unfold State.dropSection
  cases hs : s.sectionAt a with
  | none =>
    dsimp only
    split
    · next e => rw [e, hs]
    · rfl
  | some sec =>
    dsimp only
    rw [setSection_sectionAt]
    unfold State.sectionAt
    rw [(refused_sections a .closed sec.pendingSlots s).1]

theorem dropSection_node (s : State) (a : Addr) : (s.dropSection a).node = s.node := by
  unfold State.dropSection
  split
  · rfl
  · have h := (refused_arbitrated s a .closed (Section.pendingSlots (by assumption))).frame
    unfold State.node State.setSection
    rw [h]

/-- A registry entry that takes a role (R100). -/
def freshEntry (role : Role) : Node :=
  { role := role, declared := none, status := quietStatus role, lastHeard := none, fault := none }

/-- The section records and throws after a change of role, before the pairing is told (R100, R108). -/
def recordsReroled (t : State) (a : Addr) (was role : Role) : State :=
  let u := if was = .sect then (t.dropSection a).dropThrowsTo a else t
  if role = .sect then u.setSection a (some (Section.created u.pointerByMode)) else u

theorem changeRole_eq (s : State) (a : Addr) (role : Role) :
    s.changeRole a role = (recordsReroled (s.setNode a (freshEntry role)) a (s.node a).role role).padStatus
      (s.node a).role (s.node a).status (quietStatus role) := rfl

theorem recordsReroled_reroled (t : State) (a : Addr) (was role : Role) : Reroled t (recordsReroled t a was role) := by
  have hu : Reroled t (if was = .sect then (t.dropSection a).dropThrowsTo a else t) := by
    split
    · exact (dropSection_reroled t a).trans (dropThrowsTo_plain _ a).reroled
    · exact .refl t
  unfold recordsReroled
  refine hu.trans ?_
  generalize (if was = .sect then (t.dropSection a).dropThrowsTo a else t) = u
  dsimp only
  split
  · refine setSection_reroled u a _ fun sec h => ?_
    obtain rfl := Option.some.inj h
    rfl
  · exact .refl u

theorem recordsReroled_node (t : State) (a : Addr) (was role : Role) : (recordsReroled t a was role).node = t.node := by
  have hu : (if was = .sect then (t.dropSection a).dropThrowsTo a else t).node = t.node := by
    split
    · exact dropSection_node t a
    · rfl
  unfold recordsReroled
  dsimp only
  split
  · exact hu
  · exact hu

/-- Records stand beside a as before; at a one stands where the role is SECTION or the old record was left. -/
theorem recordsReroled_isSome (t : State) (a b : Addr) (was role : Role) :
    ((recordsReroled t a was role).sectionAt b).isSome
      = if b = a then decide (role = .sect) || (decide (was ≠ .sect) && (t.sectionAt a).isSome) else (t.sectionAt b).isSome := by
  have hu : (if was = .sect then (t.dropSection a).dropThrowsTo a else t).sectionAt b
      = if b = a ∧ was = .sect then none else t.sectionAt b := by
    by_cases hw : was = .sect
    · rw [if_pos hw]
      simp only [hw, and_true]
      exact dropSection_sectionAt t a b
    · rw [if_neg hw, if_neg fun h => hw h.2]
  unfold recordsReroled
  dsimp only
  by_cases hr : role = .sect
  · rw [if_pos hr, setSection_sectionAt, hu]
    by_cases hb : b = a <;> simp [hb, hr]
  · rw [if_neg hr, hu]
    by_cases hb : b = a
    · by_cases hw : was = .sect <;> simp [hb, hr, hw]
    · simp [hb]

theorem freshEntry_status (role : Role) : (freshEntry role).status = .unconfigured ↔ (freshEntry role).role = .none := by
  cases role <;> decide

/-- Room for one more node of a limited role (R97). -/
theorem roleCount_setNode_le {s : State} {a : Addr} {n : Node} {r : Role} {lim : Nat} (ho : n.role = r → s.othersWith a r < lim)
    (hc : roleCount s r ≤ lim) : roleCount (s.setNode a n) r ≤ lim := by
  have hoth := othersWith_setNode s (s.setNode a n) a n rfl r
  by_cases hr : n.role = r
  · have h1 := roleCount_le_succ_others (s.setNode a n) a r
    have h2 := ho hr
    omega
  · have h1 := roleCount_of_others (s.setNode a n) a r (by rw [setNode_node, if_pos rfl]; exact hr)
    have h2 := others_le_roleCount s a r
    omega

theorem recordsReroled_registry {s : State} {a : Addr} {role : Role} (hn : s.noRoom a role = false) (h : RegistryKept s) :
    RegistryKept (recordsReroled (s.setNode a (freshEntry role)) a (s.node a).role role) := by
  have hnode := recordsReroled_node (s.setNode a (freshEntry role)) a (s.node a).role role
  have count (r : Role) : roleCount (recordsReroled (s.setNode a (freshEntry role)) a (s.node a).role role) r
      = roleCount (s.setNode a (freshEntry role)) r := by
    unfold roleCount
    rw [hnode]
  refine ⟨fun b => ?_, fun b => ?_, ?_, ?_⟩
  · rw [recordsReroled_isSome, hnode, setNode_node]
    by_cases hb : b = a
    · have hrec := h.records a
      have hsec : (s.setNode a (freshEntry role)).sectionAt a = s.sectionAt a := rfl
      rw [if_pos hb, if_pos hb, hsec]
      show _ ↔ role = .sect
      by_cases hr : role = .sect
      · simp [hr]
      · have : ¬ ((s.node a).role ≠ .sect ∧ (s.sectionAt a).isSome = true) := fun e => e.1 (hrec.mp e.2)
        simpa [hr] using this
    · rw [if_neg hb, if_neg hb]
      exact h.records b
  · rw [hnode, setNode_node]
    split
    · exact freshEntry_status role
    · exact h.statuses b
  · refine le_of_eq_of_le (count .sect) (roleCount_setNode_le (fun hr => ?_) h.sectionLimit)
    obtain rfl : role = .sect := hr
    exact not_le.mp (of_decide_eq_false hn)
  · refine le_of_eq_of_le (count .pad) (roleCount_setNode_le (fun hr => ?_) h.padLimit)
    obtain rfl : role = .pad := hr
    exact not_le.mp (of_decide_eq_false hn)

/-- SET_NODE (R97, R100). -/
theorem setNodeRole_settled (s : State) (q : NodeReq) : Settled s (s.setNodeRole q) := by
  unfold State.setNodeRole
  split
  · exact (respond_plain s _ _).settled
  · next hn =>
    split
    · exact (setNode_plain s q.addr { s.node q.addr with fault := none } rfl id).settled.trans (respond_plain _ _ _).settled
    · have hr := ((setNode_reroled s q.addr (freshEntry q.role)).trans (recordsReroled_reroled _ q.addr _ q.role)).settled
        (recordsReroled_registry (Bool.eq_false_iff.mpr hn))
      rw [changeRole_eq]
      exact (hr.trans (padStatus_plain _ _ _ _).settled).trans (respond_plain _ _ _).settled

end Sys2Proof.Proofs.Kept
end

section
/-! PROOFS. What the Handset Receiver's events, the Rail Frame Generator's, the resets and the store load keep. -/

namespace Sys2Proof.Proofs.Kept

open Sys2Proof Sys2Proof.Machine Host

/-! ### Frames (R20 to R30) -/

theorem applyPendingWatch_fits {r : Car} (h : CarFits r) : CarFits r.applyPendingWatch :=
  { h with watch := ⟨by
      unfold Car.applyPendingWatch
      dsimp only
      cases hp : r.pendingWatch with
      | none => exact h.watch.1
      | some n => exact h.watch.2 n hp, fun _ hn => absurd hn (Option.not_mem_none _)⟩ }

/-- The ranges of the fields that a frame carries (R195, R197). -/
structure FrameRanged (f : HandsetFrame) : Prop where
  seq : f.seq ≤ 15
  thr : f.thr ≤ 255
  batt : f.batt ≤ 7

theorem parseHandset_ranged {chars : List Byte} {f : HandsetFrame} (h : parseHandset chars = some f) : FrameRanged f := by
  unfold parseHandset at h
  split at h
  · split at h
    · obtain rfl := Option.some.inj h
      exact ⟨Nat.le_of_lt_succ (Nat.mod_lt _ (by decide)), byte_le _, Nat.le_of_lt_succ (Nat.mod_lt _ (by decide))⟩
    · exact nomatch h
  · exact nomatch h

theorem accept_fits {f : HandsetFrame} {r : Car} (hf : FrameRanged f) (hb : r.binding ≠ none) (h : CarFits r) :
    CarFits (r.accept f) where
  inputs := ⟨hf.thr, hf.batt, fun _ hn => Option.mem_some_iff.mp hn ▸ hf.seq⟩
  curves := h.curves
  console := h.console
  calibration := h.calibration
  limit := h.limit
  steps := h.steps
  watch := h.watch
  motion := h.motion
  levels := h.levels
  fading hl := nomatch hl
  fadeCap := ⟨Nat.le_refl 255, fun _ => Nat.succ_pos 254⟩
  unbound := ⟨fun e => absurd e hb, fun e => nomatch e⟩

/-- A record changed and its watch timer restarted (R34). -/
theorem restartWatch_modifyCar (s : State) (k : Slot) (g : Car → Car) :
    (s.modifyCar k g).restartWatch k = { s with
      cars := s.cars.set k (g (s.car k)).applyPendingWatch
      watch := s.watch.set k (some (after s.now (g (s.car k)).applyPendingWatch.watchTimeout)) } := by
  simp [State.restartWatch, State.modifyCar, State.setCar, State.setWatch, State.car]

theorem accepted_plain (s : State) (k : Slot) (f : HandsetFrame) (hf : FrameRanged f) (hb : (s.car k).binding ≠ none) :
    Plain s ((s.modifyCar k (Car.accept f)).restartWatch k) := by
  rw [restartWatch_modifyCar]
  exact car_watch_plain s k _ _ (fun h _ => ⟨applyPendingWatch_fits (accept_fits hf hb h), ⟨fun _ => .inl rfl, fun _ => rfl⟩⟩) rfl

/-- The slot an identity is bound to (R22). -/
theorem ownerOf_some {s : State} {h : Hid} {k : Slot} (ho : s.ownerOf h = some k) : (s.car k).binding = some h := by
  have := List.find?_some ho
  simpa using this

theorem ownerOf_none {s : State} {h : Hid} (ho : s.ownerOf h = none) (k : Slot) : (s.car k).binding ≠ some h := by
  have := List.find?_eq_none.mp ho k (by revert k; decide)
  simpa using this

theorem raiseIf_car (s : State) (c : Bool) (e : Event) (k : Slot) : (s.raiseIf c e).car k = s.car k := by
  unfold State.raiseIf
  split <;> rfl

theorem recompute_plain (s : State) (k : Slot) : Plain s (s.recompute k) :=
  car_plain s k _ (fun h => recompute_fits _ (.of_fits h)) rfl rfl

theorem recompute_binding (s : State) (k : Slot) : ((s.recompute k).car k).binding = (s.car k).binding := by
  rw [State.recompute, State.modifyCar, setCar_car, if_pos rfl]
  rfl

/-- An offer of the identity bound to slot k, then a wake (R24). -/
theorem offered_settled (s : State) (k : Slot) (f : HandsetFrame) (hb : (s.car k).binding = some f.hid) :
    Settled s (let s := if f.bind then s.bindOffer f.hid (some k) else s
      if f.wake = true ∧ s.track = .standby ∧ s.options.handsetWake = true then s.wakeRequest k else s) := by
  have h : Settled s (if f.bind then s.bindOffer f.hid (some k) else s) := by
    split
    · exact (bindOffer_plain s _ _ fun hi j hj => congrArg some (hi.bindings k j _ hb hj)).settled
    · exact .refl s
  dsimp only
  refine h.trans ?_
  generalize (if f.bind then s.bindOffer f.hid (some k) else s) = u
  split
  · exact wakeRequest_settled u k
  · exact .refl u

theorem acceptFrame_settled (s : State) (k : Slot) (f : HandsetFrame) (hf : FrameRanged f)
    (hb : (s.car k).binding = some f.hid) : Settled s (s.acceptFrame k f) := by
  have h1 := accepted_plain s k f hf (by rw [hb]; simp)
  have hcar : (((s.modifyCar k (Car.accept f)).restartWatch k).car k).binding = some f.hid := by
    rw [restartWatch_modifyCar, car_set_same]
    exact hb
  unfold State.acceptFrame
  generalize (s.modifyCar k (Car.accept f)).restartWatch k = u at h1 hcar
  refine (((h1.trans (raiseIf_plain u _ _)).trans (raiseIf_plain _ _ _)).trans (recompute_plain _ k)).settled.trans
    (offered_settled _ k f ?_)
  rw [recompute_binding, raiseIf_car, raiseIf_car]
  exact hcar

/-- The list after a frame of an identity bound to no slot (R30). -/
theorem unboundAfter_plain (s : State) (e : UnboundEntry) (he : ∀ k, (s.car k).binding ≠ some e.hid) :
    Plain s { s with unbound := unboundAfter s.unbound e } where
  queues h := ⟨List.length_take_le _ _, h.notices, h.throws, h.decisions, h.sending, rfl, h.writes⟩
  identities h := by
    have hsub : (unboundAfter s.unbound e).Sublist (e :: s.unbound.filter fun x => x.hid != e.hid) := List.take_sublist _ _
    refine ⟨h.bindings, h.candidate, (hsub.map _).nodup ?_, fun x hx k => ?_, h.loading⟩
    · refine List.nodup_cons.mpr ⟨fun hm => ?_, ((List.filter_sublist).map _).nodup h.list⟩
      obtain ⟨x, hx, hxe⟩ := List.mem_map.mp hm
      have := (List.mem_filter.mp hx).2
      simp [hxe] at this
    · rcases List.mem_cons.mp (hsub.subset hx) with rfl | hx
      · exact he k
      · exact h.unbound x (List.mem_filter.mp hx).1 k

theorem unboundFrame_plain (s : State) (f : HandsetFrame) (h : ∀ k, (s.car k).binding ≠ some f.hid) :
    Plain s (s.unboundFrame f) := by
  have hu := unboundAfter_plain s
    { hid := f.hid, lastSeq := f.seq, lastHeard := s.now, bind := f.bind, batt := f.batt } h
  unfold State.unboundFrame
  dsimp only
  split
  · exact hu.trans (bindOffer_plain _ _ _ fun _ j hj => absurd hj (h j))
  · exact hu

theorem handleFrame_settled (s : State) (f : HandsetFrame) (hf : FrameRanged f) : Settled s (s.handleFrame f) := by
  have duplicates (n : Nat) : Plain s { s with handsetDuplicates := n } := {}
  unfold State.handleFrame
  split
  · next k hk =>
    split
    · exact (duplicates _).settled
    · exact acceptFrame_settled s k f hf (ownerOf_some hk)
  · next hk => exact (unboundFrame_plain s f (ownerOf_none hk)).settled

/-! ### Characters (R20, R21) -/

theorem discardFrame_plain (s : State) : Plain s s.discardFrame := {}

theorem frameArrives_settled (s : State) (chars : List Byte) : Settled s (s.frameArrives chars) := by
  unfold State.frameArrives
  split
  · exact (discardFrame_plain s).settled
  · next f hf =>
    split
    · exact (receiver_plain s .hunt).settled.trans (handleFrame_settled _ f (parseHandset_ranged hf))
    · exact (discardFrame_plain s).settled

theorem receive_settled (s : State) (c : Byte) (stop : Bool) : Settled s (s.receive c stop) := by
  unfold State.receive
  split
  · split
    · exact (receiver_plain s _).settled
    · exact .refl s
  · split
    · exact (discardFrame_plain s).settled
    · split
      · split
        · exact (receiver_plain s _).settled
        · exact (discardFrame_plain s).settled
      · split
        · exact (receiver_plain s _).settled
        · exact frameArrives_settled s _

theorem receiveAll_settled (s : State) (bytes : List Byte) : Settled s (s.receiveAll bytes) :=
  List.foldlRecOn (motive := Settled s) _ _ (.refl s) fun u hu b _ => hu.trans (receive_settled u b true)

/-! ### Age-outs, watch expiries and notices (R31, R35, R36, R38) -/

theorem ageOut_plain (s : State) (p : UnboundEntry → Bool) : Plain s { s with unbound := s.unbound.filter p } where
  queues h := ⟨le_trans (List.length_filter_le _ _) h.unbound, h.notices, h.throws, h.decisions, h.sending, rfl, h.writes⟩
  identities h := ⟨h.bindings, h.candidate, (List.filter_sublist.map _).nodup h.list,
    fun e he => h.unbound e (List.mem_filter.mp he).1, h.loading⟩

theorem noticeSent_plain (s : State) : Plain s { s with notices := s.notices.tail } where
  queues h := ⟨h.unbound, le_trans (List.tail_sublist s.notices).length_le h.notices, h.throws, h.decisions, h.sending,
    rfl, h.writes⟩

/-- A record changed and recomputed, its watch timer set. -/
theorem recomputed_watch_plain (s : State) (k : Slot) (r : Car) (w : Option TrackTime)
    (hf : CarFits (s.car k) → Watched (s.car k) (s.watchOf k) → CarRanged r ∧ Watched r w)
    (hb : r.binding = (s.car k).binding) :
    Plain s { s with cars := s.cars.set k (r.recompute s.track), watch := s.watch.set k w } :=
  car_watch_plain s k _ w (fun h g => ⟨recompute_fits _ (hf h g).1, (hf h g).2⟩) hb

/-- The record of a link gone to LOST (R35, R36). -/
def Car.lost (cap : Nat) (r : Car) : Car := { r with fadeCap := cap, link := .lost, armed := false }

theorem lost_ranged {r : Car} {cap : Nat} (hc : cap ≤ 255) (hl : r.link ≠ .none) (h : CarRanged r) :
    CarRanged (Car.lost cap r) where
  inputs := h.inputs
  curves := h.curves
  console := h.console
  calibration := h.calibration
  limit := h.limit
  steps := h.steps
  watch := h.watch
  motion := h.motion
  fadeCap := ⟨hc, fun e => nomatch e⟩
  unbound := ⟨fun e => absurd (h.unbound.mp e) hl, fun e => nomatch e⟩

/-- The record of a link that fades, its timer restarted (R34 to R36). -/
def Car.faded (cap : Nat) (armed : Bool) (r : Car) : Car :=
  ({ r with fadeCap := cap, link := .fade, armed := armed } : Car).applyPendingWatch

theorem faded_ranged {r : Car} {cap : Nat} (a : Bool) (hc : cap ≤ 255) (h0 : cap ≠ 0) (hl : r.link ≠ .none)
    (h : CarRanged r) : CarRanged (Car.faded cap a r) where
  inputs := h.inputs
  curves := h.curves
  console := h.console
  calibration := h.calibration
  limit := h.limit
  steps := h.steps
  watch := by
    refine ⟨?_, fun n hn => absurd hn (Option.not_mem_none n)⟩
    show 20 ≤ r.pendingWatch.getD r.watchTimeout ∧ r.pendingWatch.getD r.watchTimeout ≤ 2000
    cases hp : r.pendingWatch with
    | none => exact h.watch.1
    | some n => exact h.watch.2 n hp
  motion := h.motion
  fadeCap := ⟨hc, fun _ => Nat.pos_of_ne_zero h0⟩
  unbound := ⟨fun e => absurd (h.unbound.mp e) hl, fun e => nomatch e⟩

theorem firstExpiry_of_stopped (s : State) (k : Slot) (h : (s.car k).output = 0) :
    (s.firstExpiry k).recompute k = ({ s with
        cars := s.cars.set k ((Car.lost (s.car k).output (s.car k)).recompute s.track)
        watch := s.watch.set k none } : State).raise .link := by
  simp only [State.car, Fin.getElem_fin] at h
  simp [State.firstExpiry, State.modifyCar, State.setCar, State.car, State.loseLink, State.setWatch, State.raise,
    State.recompute, Car.lost, h]

theorem firstExpiry_of_moving (s : State) (k : Slot) (h : (s.car k).output ≠ 0) :
    (s.firstExpiry k).recompute k = ({ s with
        cars := s.cars.set k ((Car.faded (s.car k).output false (s.car k)).recompute s.track)
        watch := s.watch.set k (some (after s.now (Car.faded (s.car k).output false (s.car k)).watchTimeout)) }
        : State).raise .link := by
  simp only [State.car, Fin.getElem_fin] at h
  simp [State.firstExpiry, State.modifyCar, State.setCar, State.car, State.setWatch, State.restartWatch, State.raise,
    State.recompute, Car.faded, h]

theorem fadeExpiry_of_spent (s : State) (k : Slot) (h : (s.car k).fadeCap - (s.car k).fadeStep = 0) :
    (s.fadeExpiry k).recompute k = ({ s with
        cars := s.cars.set k ((Car.lost 0 (s.car k)).recompute s.track)
        watch := s.watch.set k none } : State).raise .link := by
  simp only [State.car, Fin.getElem_fin] at h
  simp [State.fadeExpiry, State.modifyCar, State.setCar, State.car, State.loseLink, State.setWatch, State.raise,
    State.recompute, Car.lost, h]

theorem fadeExpiry_of_left (s : State) (k : Slot) (hl : (s.car k).link = .fade)
    (h : (s.car k).fadeCap - (s.car k).fadeStep ≠ 0) :
    (s.fadeExpiry k).recompute k = { s with
        cars := s.cars.set k
          ((Car.faded ((s.car k).fadeCap - (s.car k).fadeStep) (s.car k).armed (s.car k)).recompute s.track)
        watch := s.watch.set k (some (after s.now
          (Car.faded ((s.car k).fadeCap - (s.car k).fadeStep) (s.car k).armed (s.car k)).watchTimeout)) } := by
  simp only [State.car, Fin.getElem_fin] at h hl
  simp [State.fadeExpiry, State.modifyCar, State.setCar, State.car, State.setWatch, State.restartWatch, State.recompute,
    Car.faded, h, ← hl]

/-- A watch timer's expiry in LIVE or FADE: the link is lost or fades on (R35, R36). -/
theorem watchExpires_plain (s : State) (k : Slot) : Plain s (s.watchExpires k) := by
  have lost (cap : Nat) (hn : (s.car k).link ≠ .none) (hc : CarFits (s.car k) → cap ≤ 255) :=
    recomputed_watch_plain s k (Car.lost cap (s.car k)) none
      (fun h _ => ⟨lost_ranged (hc h) hn (.of_fits h), by simp [Watched, Car.lost]⟩) rfl
  have faded (cap : Nat) (a : Bool) (t : TrackTime) (hn : (s.car k).link ≠ .none) (h0 : cap ≠ 0)
      (hc : CarFits (s.car k) → cap ≤ 255) :=
    recomputed_watch_plain s k (Car.faded cap a (s.car k)) (some t)
      (fun h _ => ⟨faded_ranged a (hc h) h0 hn (.of_fits h), by simp [Watched, Car.faded, Car.applyPendingWatch]⟩) rfl
  have live (h : CarFits (s.car k)) : (s.car k).output ≤ 255 := le_trans h.levels.1 h.limit
  have fade (h : CarFits (s.car k)) : (s.car k).fadeCap - (s.car k).fadeStep ≤ 255 :=
    le_trans (Nat.sub_le _ _) h.fadeCap.1
  unfold State.watchExpires
  split
  · cases hl : (s.car k).link with
    | none | silent | lost => exact .refl s
    | live =>
      have hn : (s.car k).link ≠ .none := by rw [hl]; decide
      dsimp only
      by_cases h0 : (s.car k).output = 0
      · rw [firstExpiry_of_stopped s k h0]
        exact (lost _ hn live).trans (raise_plain _ _)
      · rw [firstExpiry_of_moving s k h0]
        exact (faded _ _ _ hn h0 live).trans (raise_plain _ _)
    | fade =>
      have hn : (s.car k).link ≠ .none := by rw [hl]; decide
      dsimp only
      by_cases h0 : (s.car k).fadeCap - (s.car k).fadeStep = 0
      · rw [fadeExpiry_of_spent s k h0]
        exact (lost 0 hn fun _ => Nat.zero_le _).trans (raise_plain _ _)
      · rw [fadeExpiry_of_left s k hl h0]
        exact faded _ _ _ hn h0 fade
  · exact .refl s

/-! ### Frame starts and bursts (R54, R81, R88) -/

theorem slew_fits {r : Car} (t : TrackState) (h : CarFits r) : CarFits (r.slew t) := by
  have moved (o : Nat) (ho : o ≤ r.target ∨ o ≤ r.output) : CarFits { r with output := o } :=
    { h with
      levels := ⟨ho.elim (fun e => le_trans e h.levels.2) fun e => le_trans e h.levels.1, h.levels.2⟩
      fading := fun hl hc => ⟨ho.elim (fun e => le_trans e (h.fading hl hc).2) fun e => le_trans e (h.fading hl hc).1,
        (h.fading hl hc).2⟩ }
  unfold Car.slew
  split
  · exact moved 0 (.inl (Nat.zero_le _))
  · split
    · exact moved _ (.inl (Nat.min_le_left _ _))
    · refine moved _ (.inr ?_)
      omega

theorem slew_link (t : TrackState) (r : Car) : (r.slew t).link = r.link ∧ (r.slew t).binding = r.binding := by
  unfold Car.slew
  split
  · exact ⟨rfl, rfl⟩
  · split <;> exact ⟨rfl, rfl⟩

theorem beginProgram_frame (r : Rail) : r.beginProgram.power = r.power ∧ r.beginProgram.settleCounter = r.settleCounter
    ∧ r.beginProgram.burst = r.burst := by
  unfold Rail.beginProgram
  split
  · split <;> exact ⟨rfl, rfl, rfl⟩
  · exact ⟨rfl, rfl, rfl⟩

theorem startFrame_plain (s : State) (hd : s.frameDue = true) : Plain s s.startFrame := by
  have hpower : s.rail.power = true := (Bool.and_eq_true_iff.mp hd).1
  have h1 := mapCars_plain s (Car.slew s.track) (fun r => slew_fits s.track) (fun r => (slew_link _ r).1)
    fun r => (slew_link _ r).2
  unfold State.startFrame
  refine h1.trans (rail_plain _ _ fun h => ?_)
  obtain ⟨b1, b2, b3⟩ := beginProgram_frame { s.rail with
    frameCount := s.rail.frameCount + 1
    raildata := some {
      words := Vector.ofFn fun k : Slot => (s.mapCars (Car.slew s.track)).cars[k].railWord s.track
      status := statusWord s.track (s.rail.frameCount + 1) }
    settleCounter := settleAfter s.track s.rail.settleCounter }
  refine ⟨(Bool.coe_iff_coe.mpr b1).trans h.power, (b1.trans hpower).symm, fun hn => b2.trans ?_, fun hb => h.burst (b3.symm.trans hb)⟩
  show settleAfter s.track s.rail.settleCounter = 0
  unfold settleAfter
  exact (if_neg hn).trans (h.counter hn)

theorem burstDone_plain (s : State) :
    Plain s (if s.rail.burstDone then ({ s with rail := s.rail.burstIdle }).burstCompleted s.rail.burstSlot else s) := by
  split
  · exact (rail_plain s _ burstIdle_agrees).trans (burstCompleted_plain _ _)
  · exact .refl s

end Sys2Proof.Proofs.Kept
end

section
/-! PROOFS. What the resets, the store load and the track commands keep. -/

namespace Sys2Proof.Proofs.Kept

open Sys2Proof Sys2Proof.Machine Host

/-! ### POR and RST (R75) -/

theorem por_fits : CarFits Car.por where
  inputs := ⟨by decide, by decide, fun n hn => absurd hn (Option.not_mem_none n)⟩
  curves := by decide
  console n hn := absurd hn (Option.not_mem_none n)
  calibration := by decide
  limit := by decide
  steps := by decide
  watch := ⟨by decide, fun n hn => absurd hn (Option.not_mem_none n)⟩
  motion := by decide
  levels := by decide
  fading hl := nomatch hl
  fadeCap := by decide
  unbound := by decide

/-- A state in which no invariant can be broken: that of every block at its POR values, whatever the store's records. -/
structure Sound (t : State) : Prop where
  followers : TrackFollowers t
  queues : QueuesBounded t
  registry : RegistryKept t
  quiet : StandbyQuiet t
  cars : CarsKept t
  identities : IdentitiesDistinct t
  claims : ClaimsKept t

theorem Sound.settled {t : State} (h : Sound t) (s : State) : Settled s t :=
  ⟨⟨fun _ => h.followers, fun _ => ⟨h.queues.unbound, h.queues.notices, h.queues.throws, h.queues.decisions,
      h.queues.sending, rfl, h.queues.writes⟩, fun _ => h.registry, fun _ => h.quiet, fun _ => h.cars,
      fun _ => h.identities⟩, fun _ => h.claims, fun _ => h.queues.requests⟩

theorem por_car (p : List Instr) (h r : Bool) (st : Store) (k : Slot) : (State.por p h r st).car k = Car.por := by
  simp [State.por, State.car]

theorem por_node (p : List Instr) (h r : Bool) (st : Store) (a : Addr) : (State.por p h r st).node a = Node.por := by
  simp [State.por, State.node]

theorem por_sectionAt (p : List Instr) (h r : Bool) (st : Store) (a : Addr) : (State.por p h r st).sectionAt a = none := by
  simp [State.por, State.sectionAt]

theorem por_sound (p : List Instr) (h r : Bool) (st : Store) (hd : ∀ k : Slot, st.dirty[k] = false) :
    Sound (State.por p h r st) where
  followers := ⟨⟨fun e => (nomatch e), fun e => absurd rfl e⟩, rfl, fun _ => rfl, fun e => (nomatch e), fun e => absurd rfl e⟩
  queues := ⟨Nat.zero_le _, Nat.zero_le _, Nat.zero_le _, Nat.zero_le _, fun e => (nomatch e), rfl, fun _ => hd⟩
  registry := by
    refine ⟨fun a => ?_, fun a => ?_, ?_, ?_⟩
    · rw [por_sectionAt, por_node]
      decide
    · rw [por_node]
      decide
    · simp only [por_node]
      decide
    · simp only [por_node]
      decide
  quiet _ := ⟨fun a sec hs => absurd (hs.symm.trans (por_sectionAt p h r st a)) (by simp), rfl, fun k => by
    simp [State.por, State.position]⟩
  cars k := by
    rw [por_car]
    refine ⟨por_fits, ?_⟩
    simp [State.por, State.watchOf, Car.por]
  identities := by
    have unbound (k : Slot) : ((State.por p h r st).car k).binding = none := by rw [por_car]; rfl
    exact ⟨fun j k x hj => (by rw [unbound] at hj; exact nomatch hj), fun x hx => absurd hx (Option.not_mem_none x),
      List.nodup_nil, fun e he => absurd he List.not_mem_nil, fun _ => ⟨rfl, rfl, unbound⟩⟩
  claims a sec hs := by
    rw [por_sectionAt] at hs
    exact nomatch hs

theorem storePor_clean (st : Store) (k : Slot) : st.por.dirty[k] = false := by simp [Store.por]

theorem hold_settled (s : State) : Settled s s.hold := (por_sound _ _ _ _ (storePor_clean s.store)).settled s

theorem release_settled (s : State) : Settled s s.release := by
  unfold State.release
  split
  · exact (por_sound _ _ _ _ (storePor_clean s.store)).settled s
  · exact .refl s

theorem reset_sound : Sound State.reset := por_sound _ _ _ _ (by decide)

/-! ### The soft reset (R76) -/

theorem softReset_car (s : State) (k : Slot) : s.softReset.car k = (s.car k).softReset := by
  simp [State.softReset, State.car]

theorem softReset_node (s : State) (a : Addr) : s.softReset.node a = (s.node a).softReset := by
  simp [State.softReset, State.node]

theorem softReset_sectionAt (s : State) (a : Addr) :
    s.softReset.sectionAt a = (s.sectionAt a).map (Section.softReset s.pointerByMode) := by
  simp [State.softReset, State.sectionAt]

theorem softReset_claims {s : State} {a : Addr} {sec : Section} (hs : s.softReset.sectionAt a = some sec) : sec.claims = [] := by
  rw [softReset_sectionAt] at hs
  obtain ⟨x, -, rfl⟩ := Option.map_eq_some_iff.mp hs
  rfl

theorem quietLink_none (b : Option Hid) : b = none ↔ quietLink b = .none := by cases b <;> simp [quietLink]

theorem softReset_fits {r : Car} (h : CarFits r) : CarFits r.softReset where
  inputs := ⟨Nat.zero_le _, Nat.le_refl 7, fun n hn => absurd hn (Option.not_mem_none n)⟩
  curves := h.curves
  console n hn := absurd hn (Option.not_mem_none n)
  calibration := h.calibration
  limit := h.limit
  steps := h.steps
  watch := ⟨h.watch.1, fun n hn => absurd hn (Option.not_mem_none n)⟩
  motion := h.motion
  levels := ⟨Nat.zero_le _, Nat.zero_le _⟩
  fading _ _ := ⟨Nat.zero_le _, Nat.zero_le _⟩
  fadeCap := ⟨Nat.le_refl 255, fun _ => Nat.succ_pos 254⟩
  unbound := quietLink_none r.binding

theorem softReset_settled (s : State) : Settled s s.softReset where
  keeps := {
    followers := fun _ => ⟨⟨fun e => (nomatch e), fun e => absurd rfl e⟩, rfl, fun _ => rfl, fun e => (nomatch e), fun e => absurd rfl e⟩
    queues := fun h => ⟨Nat.zero_le _, Nat.zero_le _, Nat.zero_le _, Nat.zero_le _, fun e => (nomatch e), rfl, h.writes⟩
    registry := fun h => by
      have hrole (a : Addr) : (s.softReset.node a).role = (s.node a).role := by rw [softReset_node]; rfl
      refine ⟨fun a => ?_, fun a => ?_, ?_, ?_⟩
      · rw [hrole, ← h.records a, softReset_sectionAt, Option.isSome_map]
      · rw [softReset_node]
        exact freshEntry_status (s.node a).role
      · simp only [hrole]
        exact h.sectionLimit
      · simp only [hrole]
        exact h.padLimit
    quiet := fun _ _ => ⟨fun _ _ hs => softReset_claims hs, rfl, fun k => by simp [State.softReset, State.position]⟩
    cars := fun h k => by
      rw [softReset_car]
      refine ⟨softReset_fits (h k).1, ?_⟩
      cases hb : (s.car k).binding <;> simp [State.softReset, State.watchOf, Car.softReset, quietLink, hb]
    identities := fun h => by
      have hbind (k : Slot) : (s.softReset.car k).binding = (s.car k).binding := by rw [softReset_car]; rfl
      refine ⟨fun j k x hj hk => ?_, fun x hx => absurd hx (Option.not_mem_none x), List.nodup_nil,
        fun e he => absurd he List.not_mem_nil, fun hl => ?_⟩
      · rw [hbind] at hj hk
        exact h.bindings j k x hj hk
      · obtain ⟨h1, -, h3⟩ := h.loading hl
        exact ⟨h1, rfl, fun k => (hbind k).trans (h3 k)⟩ }
  claims _ a sec hs := by
    rw [softReset_claims hs]
    exact .nil _
  requests _ := rfl

/-! ### The store load (R174) -/

/-- What loading slots changes, identities apart. -/
structure SlotsLoaded (s t : State) : Prop where
  frame : t = { s with cars := t.cars, watch := t.watch, unbound := t.unbound, store := { s.store with bad := t.store.bad } }
  cars : CarsKept s → CarsKept t
  list : t.unbound.length ≤ s.unbound.length

theorem SlotsLoaded.refl (s : State) : SlotsLoaded s s := ⟨rfl, id, le_rfl⟩

theorem SlotsLoaded.trans {s t u : State} (h : SlotsLoaded s t) (g : SlotsLoaded t u) : SlotsLoaded s u where
  frame := by rw [g.frame, h.frame]
  cars := g.cars ∘ h.cars
  list := le_trans g.list h.list

theorem loadSlot_loaded (s : State) (x : Slot × Option Hid × Bool) : SlotsLoaded s (s.loadSlot x) := by
  have hc := changeBinding_cars s x.1 x.2.1
  have hs := (setStoreStatus_plain (s.changeBinding x.1 x.2.1) x.1 (if x.2.2 then .unsaved else .saved)).cars
  unfold State.loadSlot
  dsimp only
  refine ⟨?_, fun h => hs (hc h), ?_⟩
  · rw [changeBinding_eq]
    rfl
  · rw [changeBinding_eq]
    exact (leaveUnbound_sublist _ _).length_le

theorem loadSlot_binding (s : State) (x : Slot × Option Hid × Bool) (j : Slot) :
    ((s.loadSlot x).car j).binding = if j = x.1 then x.2.1 else (s.car j).binding := by
  rw [← changeBinding_binding]
  show (((s.changeBinding x.1 x.2.1).setStoreStatus x.1 _).car j).binding = _
  unfold State.setStoreStatus State.modifyCar
  rw [setCar_car]
  split
  · next h => rw [h]
  · rfl

theorem loadSlot_unbound (s : State) (x : Slot × Option Hid × Bool) : (s.loadSlot x).unbound = leaveUnbound s.unbound x.2.1 := by
  show (s.changeBinding x.1 x.2.1).unbound = _
  rw [changeBinding_eq]

/-- The identities while slots are loaded, `taken` those bound so far. -/
structure IdentitiesLoading (s : State) (taken : List Hid) : Prop where
  bindings : ∀ j k h, (s.car j).binding = some h → (s.car k).binding = some h → j = k
  taken : ∀ j h, (s.car j).binding = some h → h ∈ taken
  list : (s.unbound.map fun e => e.hid).Nodup
  unbound : ∀ e ∈ s.unbound, ∀ k, (s.car k).binding ≠ some e.hid

/-- A slot takes no identity, or one that is not taken. -/
theorem IdentitiesLoading.loadSlot {s : State} {taken : List Hid} (h : IdentitiesLoading s taken)
    (x : Slot × Option Hid × Bool) (hx : ∀ i ∈ x.2.1, i ∉ taken) :
    IdentitiesLoading (s.loadSlot x) (x.2.1.toList ++ taken) where
  bindings j k i hj hk := by
    rw [loadSlot_binding] at hj hk
    split at hj <;> split at hk
    · next e1 e2 => exact e1.trans e2.symm
    · exact absurd (h.taken k i hk) (hx i hj)
    · exact absurd (h.taken j i hj) (hx i hk)
    · exact h.bindings j k i hj hk
  taken j i hj := by
    rw [loadSlot_binding] at hj
    split at hj
    · rw [hj]
      simp
    · exact List.mem_append_right _ (h.taken j i hj)
  list := by
    rw [loadSlot_unbound]
    exact ((leaveUnbound_sublist _ _).map _).nodup h.list
  unbound e he k := by
    rw [loadSlot_unbound] at he
    rw [loadSlot_binding]
    split
    · intro hb
      rw [hb] at he
      simp [leaveUnbound] at he
    · exact h.unbound e ((leaveUnbound_sublist _ _).subset he) k

theorem loadSlots_identities (rs : Vector StoredRecord 8) : ∀ (ks : List Slot) (s : State) (taken : List Hid),
    IdentitiesLoading s taken → ∃ all, IdentitiesLoading ((loadSlots rs ks taken).foldl State.loadSlot s) all
  | [], s, taken, h => ⟨taken, h⟩
  | k :: ks, s, taken, h => by
    have none_taken (b : Bool) : IdentitiesLoading (s.loadSlot (k, none, b)) taken :=
      h.loadSlot (k, none, b) fun i hi => absurd hi (Option.not_mem_none i)
    unfold loadSlots
    split
    · rw [List.foldl_cons]
      exact loadSlots_identities rs ks _ taken (none_taken true)
    · rw [List.foldl_cons]
      exact loadSlots_identities rs ks _ taken (none_taken false)
    · next i _ =>
      split
      · rw [List.foldl_cons]
        exact loadSlots_identities rs ks _ taken (none_taken true)
      · next hn =>
        rw [List.foldl_cons]
        refine loadSlots_identities rs ks _ (i :: taken) (h.loadSlot (k, some i, false) fun j hj => ?_)
        obtain rfl := Option.mem_some_iff.mp hj
        simpa using hn

theorem completeLoad_plain (s : State) (hl : s.store.load = .loading) : Plain s s.completeLoad := by
  have hload : SlotsLoaded s ((loadSlots s.store.records allSlots []).foldl State.loadSlot s) :=
    List.foldlRecOn (motive := SlotsLoaded s) _ _ (.refl s) fun u hu x _ => hu.trans (loadSlot_loaded u x)
  have hid (h : IdentitiesDistinct s) := loadSlots_identities s.store.records allSlots s [] (by
    have hb := (h.loading hl).2.2
    exact ⟨h.bindings, fun j i hj => absurd (hj.symm.trans (hb j)) (by simp), h.list, h.unbound⟩)
  unfold State.completeLoad
  refine Plain.trans ?_ (raiseIf_plain _ _ .fault)
  generalize (loadSlots s.store.records allSlots []).foldl State.loadSlot s = u at hload hid
  obtain ⟨hf, hc, hu⟩ := hload
  have hnone (h : IdentitiesDistinct s) : s.pairing.candidate = none := by
    cases hp : s.pairing.candidate with
    | none => rfl
    | some i =>
      have h1 := (h.candidate i hp).1
      rw [(h.loading hl).2.1] at h1
      exact nomatch h1
  rw [hf] at hid
  rw [hf]
  exact {
    queues := fun h => ⟨le_trans hu h.unbound, h.notices, h.throws, h.decisions, h.sending, rfl, h.writes⟩
    cars := fun h k => by
      have := hc h k
      rw [hf] at this
      exact this
    identities := fun h => by
      obtain ⟨_, g⟩ := hid h
      exact ⟨g.bindings, fun x hx => absurd (show x ∈ s.pairing.candidate from hx) (by rw [hnone h]; exact Option.not_mem_none x),
        g.list, g.unbound, fun e => (nomatch e)⟩ }

/-! ### The track commands (R64 to R68, R73, R80) -/

theorem answerTrack_plain (s : State) (st : Status) : Plain s (s.answerTrack st) := respond_plain s st _

theorem wake_settled (s : State) : Settled s s.wake := by
  unfold State.wake
  split
  · next ht =>
    split
    · exact (answerTrack_plain s _).settled
    · exact (wakeUp_settled _ ht).trans (answerTrack_plain _ _).settled
  · exact (answerTrack_plain s _).settled

theorem sleep_settled (s : State) : Settled s s.sleep := by
  unfold State.sleep
  split
  · exact (answerTrack_plain s _).settled
  · exact (goToSleep_settled s).trans (answerTrack_plain _ _).settled
  · exact (goToSleep_settled s).trans (answerTrack_plain _ _).settled
  · exact (answerTrack_plain s _).settled
  · exact (answerTrack_plain s _).settled

/-- A change between two states other than STANDBY and SETTLE. -/
theorem changeTrack_racing {s : State} {new : TrackState} (hn : new ≠ .settle) (h0 : s.track ≠ .standby)
    (h1 : s.track ≠ .settle) : Settled s (s.changeTrack new) :=
  changeTrack_settled (change_awake hn h0 fun e => absurd e h1)

theorem haltTrack_settled (s : State) : Settled s s.haltTrack := by
  unfold State.haltTrack
  cases ht : s.track with
  | standby | settle | halt => exact (answerTrack_plain s _).settled
  | run | caution =>
    exact (changeTrack_racing (by decide) (by rw [ht]; decide) (by rw [ht]; decide)).trans (answerTrack_plain _ _).settled

theorem goTrack_settled (s : State) : Settled s s.goTrack := by
  unfold State.goTrack
  cases ht : s.track with
  | standby | settle | run => exact (answerTrack_plain s _).settled
  | halt | caution =>
    exact (changeTrack_racing (by decide) (by rw [ht]; decide) (by rw [ht]; decide)).trans (answerTrack_plain _ _).settled

theorem cautionTrack_settled (s : State) : Settled s s.cautionTrack := by
  unfold State.cautionTrack
  split
  · next ht => exact (enterCaution_settled _ ht).trans (answerTrack_plain _ _).settled
  · exact (answerTrack_plain s _).settled

theorem settleCompletion_settled (s : State) :
    Settled s (if s.track = .settle ∧ s.rail.settleCounter = 0 then s.changeTrack .halt else s) := by
  split
  · next h => exact changeTrack_settled (change_awake (by decide) (by rw [h.1]; decide) fun _ => h.2)
  · exact .refl s

/-- Options that no PENDING request stands against: those of a crossing that may still be granted, or may not have been. -/
theorem options_settled (s : State) (o : Options)
    (h : ({ s with options := o } : State).crossingAllowed = false → s.crossingAllowed = false) :
    Settled s { s with options := o } where
  keeps := ⟨fun g => ⟨g.power, g.starts, g.counter, g.burst, g.pairing⟩,
    fun g => ⟨g.unbound, g.notices, g.throws, g.decisions, g.sending, rfl, g.writes⟩,
    fun g => ⟨g.records, g.statuses, g.sectionLimit, g.padLimit⟩, id, id,
    fun g => ⟨g.bindings, g.candidate, g.list, g.unbound, g.loading⟩⟩
  claims g a sec hs := ⟨(g a sec hs).length, (g a sec hs).single, (g a sec hs).fits, fun hf => (g a sec hs).pending (h hf)⟩
  requests := id

theorem optionsDenied_settled (s : State) (o : Options) (ht : s.track = .caution) :
    Settled s ({ s with options := o } : State).denyForState where
  keeps := by
    have h1 : Keeps s { s with options := o } := ⟨fun g => ⟨g.power, g.starts, g.counter, g.burst, g.pairing⟩,
      fun g => ⟨g.unbound, g.notices, g.throws, g.decisions, g.sending, rfl, g.writes⟩,
      fun g => ⟨g.records, g.statuses, g.sectionLimit, g.padLimit⟩, id, id,
      fun g => ⟨g.bindings, g.candidate, g.list, g.unbound, g.loading⟩⟩
    exact h1.trans ((denyForState_arbitrated _).keeps_awake fun _ => by rw [show _ = s.track from rfl, ht]; decide)
  claims g := denyForState_kept (s := { s with options := o }) g.lists
  requests g := (denyForState_denied { s with options := o }).2.trans g

theorem setOptions_settled (s : State) (q : OptionsReq) : Settled s (s.setOptions q) := by
  unfold State.setOptions
  dsimp only
  by_cases h : s.track = .caution ∧ s.options.cautionLanes = .allow ∧ (s.options.set q).cautionLanes = .deny
  · rw [if_pos h]
    exact (optionsDenied_settled s (s.options.set q) h.1).trans (respond_plain _ _ _).settled
  · rw [if_neg h]
    refine (options_settled s (s.options.set q) fun hf => ?_).trans (respond_plain _ _ _).settled
    obtain ⟨h1, h2⟩ := (crossingAllowed_eq_false_iff _).mp hf
    refine (crossingAllowed_eq_false_iff s).mpr ⟨h1, fun ha => h ⟨ha.1, ha.2, ?_⟩⟩
    cases hl : (s.options.set q).cautionLanes with
    | deny => rfl
    | allow => exact absurd ⟨ha.1, hl⟩ h2

theorem setRail_plain (s : State) (q : RailReq) : Plain s (s.setRail q) := by
  have h := rail_plain s { s.rail with
    frameInterval := setParam 4 20 q.frameInterval s.rail.frameInterval
    settleCount := setParam 8 255 q.settleCount s.rail.settleCount }
    fun g => ⟨g.power, g.starts, g.counter, g.burst⟩
  exact h.trans (respond_plain _ _ _)

end Sys2Proof.Proofs.Kept
end

section
/-! PROOFS. Every step keeps the invariants (Safety.lean, "Invariants"), instruction by instruction. -/

namespace Sys2Proof.Proofs.Kept

open Sys2Proof Sys2Proof.Machine Host

/-! ### The two guards -/

/-- A console command keeps what its owner's work keeps (R75, R182, R184). -/
theorem served_settled {α : Type} {s t : State} {request : Option α} {run : α → State → State}
    (h : s.serve request run = .next t) (hr : ∀ q, request = some q → s.served = true → Settled s (run q s)) : Settled s t := by
  unfold State.serve at h
  split at h
  · obtain rfl := Outcome.next.inj h
    exact .refl s
  · split at h
    · obtain rfl := Outcome.next.inj h
      exact (respond_plain s _ _).settled
    · next hs =>
      split at h
      · obtain rfl := Outcome.next.inj h
        exact (respond_plain s _ _).settled
      · next q =>
        obtain rfl := Outcome.next.inj h
        exact hr q rfl (by simpa using hs)

/-- Any other event keeps what its work keeps (R75). -/
theorem taken_settled {s t : State} {run : State → State} (h : s.take run = .next t) (hr : Settled s (run s)) : Settled s t := by
  unfold State.take at h
  split at h
  · obtain rfl := Outcome.next.inj h
    exact .refl s
  · obtain rfl := Outcome.next.inj h
    exact hr

/-- An expiry or a completion that is checked against the state. -/
theorem checked_settled {s t : State} {c : Prop} [Decidable c] (h : c → Settled s t) : Settled s (if c then t else s) := by
  split
  · next hc => exact h hc
  · exact .refl s

theorem responds_settled (s : State) (st : Status) (d : List Byte) : Settled s (s.respond st d) := (respond_plain s st d).settled

/-! ### The instructions -/

theorem setPairing_settled (s : State) (q : PairingReq) : Settled s (s.setPairing q) := by
  have params (p : PairingParams) : Plain s { s with params := p } := {}
  exact ((params _).trans (respond_plain _ _ _)).settled

theorem wipeBindings_settled (s : State) : Settled s s.wipeBindings := by
  unfold State.wipeBindings
  split
  · exact ((wipe_plain s).trans (respond_plain _ _ _)).settled
  · exact ((wipe_plain s).trans (respond_plain _ _ _)).settled
  · exact responds_settled s _ _

theorem readSection_settled (s : State) (a : Addr) : Settled s (s.readSection a) := by
  unfold State.readSection
  split <;> exact responds_settled s _ _

theorem ackEvents_settled (s : State) (m : EventMask) : Settled s (s.ackEvents m) := by
  have flags (f : LatchedFlags) : Plain s { s with flags := f } := {}
  exact ((flags _).trans (respond_plain _ _ _)).settled

theorem setEventEnable_settled (s : State) (m : EventMask) : Settled s (s.setEventEnable m) := by
  have enables : Plain s { s with enables := m } := {}
  exact (enables.trans (respond_plain _ _ _)).settled

theorem resetAsked_settled (s : State) : Settled s (({ s with softResetDue := true } : State).respond .ok []) := by
  have due : Plain s { s with softResetDue := true } := {}
  exact (due.trans (respond_plain _ _ _)).settled

theorem railflt_plain (s : State) (b : Bool) : Plain s { s with railflt := b } := {}

theorem railfltAsserted_settled {s t : State} (h : execRailfltAssertion s = .next t) : Settled s t := by
  unfold execRailfltAssertion at h
  dsimp only at h
  split at h
  · obtain rfl := Outcome.next.inj h
    exact (railflt_plain s true).settled
  · obtain rfl := Outcome.next.inj h
    exact (railflt_plain s true).settled.trans (railFault_settled _)

theorem millisecond_plain (s : State) : Plain s { s with now := s.now + 1, lfsr := lfsrNext s.lfsr } := {}

theorem throwStart_settled (s : State) : Settled s (if s.throws.isEmpty then s else { s with throwSending := true }) := by
  split
  · exact .refl s
  · next h => exact (throws_plain s s.throws true fun g => ⟨g.throws, fun _ e => h (by simp [e])⟩).settled

theorem throwSent_settled (s : State) :
    Settled s (if s.throwSending then { s with throws := s.throws.tail, throwSending := false } else s) := by
  refine checked_settled fun _ => (throws_plain s s.throws.tail false fun g => ⟨?_, fun e => nomatch e⟩).settled
  exact le_trans (List.tail_sublist s.throws).length_le g.throws

/-- Every instruction's event keeps the invariants. -/
theorem exec_settled (i : Instr) (s t : State) (h : exec i s = .next t) : Settled s t := by
  unfold exec at h
  cases i with
  | wake args => exact served_settled h fun _ _ _ => wake_settled s
  | sleep args => exact served_settled h fun _ _ _ => sleep_settled s
  | halt args => exact served_settled h fun _ _ _ => haltTrack_settled s
  | go args => exact served_settled h fun _ _ _ => goTrack_settled s
  | caution args => exact served_settled h fun _ _ _ => cautionTrack_settled s
  | setOptions args => exact served_settled h fun q _ _ => setOptions_settled s q
  | setRail args => exact served_settled h fun q _ _ => (setRail_plain s q).settled
  | setCar args => exact served_settled h fun q hq _ => (setCarParams_plain s q (parseCar_calHi_le hq)).settled
  | setCurve args => exact served_settled h fun q hq _ => (setCurve_plain s q (parseCurve_points_le hq)).settled
  | setWatch args => exact served_settled h fun q _ _ => (setWatchTimeout_plain s q).settled
  | drive args => exact served_settled h fun q hq _ => (drive_plain s q (parseDrive_level_le hq)).settled
  | armLane args => exact served_settled h fun k _ _ => (armLane_plain s k).settled
  | unbind args => exact served_settled h fun k _ _ => (unbind_plain s k).settled
  | readCar args => exact served_settled h fun _ _ _ => responds_settled s _ _
  | setNode args => exact served_settled h fun q _ _ => setNodeRole_settled s q
  | readNode args => exact served_settled h fun _ _ _ => responds_settled s _ _
  | setSection args => exact served_settled h fun q _ _ => setSectionMap_settled s q
  | openSection args => exact served_settled h fun a _ _ => openSection_settled s a
  | closeSection args => exact served_settled h fun q _ _ => closeSection_settled s q
  | readSection args => exact served_settled h fun a _ _ => readSection_settled s a
  | openPairing args => exact served_settled h fun m _ hs => (openPairing_plain s m hs).settled
  | closePairing args => exact served_settled h fun _ _ _ => (closePairing_plain s).settled
  | readPairing args => exact served_settled h fun _ _ _ => responds_settled s _ _
  | setPairing args => exact served_settled h fun q _ _ => setPairing_settled s q
  | wipeBindings args => exact served_settled h fun _ _ _ => wipeBindings_settled s
  | readUnbound args => exact served_settled h fun _ _ _ => responds_settled s _ _
  | newRace args => exact served_settled h fun _ _ _ => newRace_settled s
  | readDecision args => exact served_settled h fun _ _ _ => readDecision_settled s
  | readStatus args => exact served_settled h fun _ _ _ => responds_settled s _ _
  | ackEvents args => exact served_settled h fun m _ _ => ackEvents_settled s m
  | setEventEnable args => exact served_settled h fun m _ _ => setEventEnable_settled s m
  | clearCounters args => exact served_settled h fun _ _ _ => clearCounters_settled s
  | reset args => exact served_settled h fun _ _ _ => resetAsked_settled s
  | unknownCommand code args => exact served_settled (request := (none : Option Unit)) h fun _ hq _ => nomatch hq
  | transactionDiscard bytes => exact Outcome.next.inj h ▸ .refl s
  | softReset => exact taken_settled h (checked_settled fun _ => softReset_settled s)
  | powerOnReset => exact Outcome.next.inj h ▸ hold_settled s
  | rstPinReset => exact Outcome.next.inj h ▸ hold_settled s
  | resetRelease => exact Outcome.next.inj h ▸ release_settled s
  | storeLoadCompletion =>
    refine taken_settled h ?_
    cases hl : s.store.load with
    | loading => exact (completeLoad_plain s hl).settled
    | ready => exact .refl s
  | handsetFrame bytes => exact taken_settled h (receiveAll_settled s bytes)
  | handsetCharacter char stop => exact taken_settled h (receive_settled s char stop)
  | handsetContinuityTimeout =>
    refine taken_settled h ?_
    cases s.receiver with
    | hunt => exact .refl s
    | inFrame chars => exact (discardFrame_plain s).settled
  | unboundAgeOut hid => exact taken_settled h (ageOut_plain s _).settled
  | watchExpiry slot => exact taken_settled h (watchExpires_plain s slot).settled
  | noticeCompletion => exact taken_settled h (noticeSent_plain s).settled
  | frameStart => exact taken_settled h (checked_settled fun hd => (startFrame_plain s hd).settled)
  | settleCompletion => exact taken_settled h (settleCompletion_settled s)
  | burstCompletion => exact taken_settled h (burstDone_plain s).settled
  | railfltAssertion => exact railfltAsserted_settled h
  | railfltDeassertion => exact Outcome.next.inj h ▸ (railflt_plain s false).settled
  | lfsrStep => exact taken_settled h (millisecond_plain s).settled
  | nodeFrame bytes => exact taken_settled h (busFrame_settled s bytes)
  | silenceExpiry addr => exact taken_settled h (checked_settled fun hd => (goSilent_plain s addr hd).settled)
  | throwTransmitStart => exact taken_settled h (throwStart_settled s)
  | throwCompletion => exact taken_settled h (throwSent_settled s)
  | claimLapse addr place => exact taken_settled h (lapse_settled s addr place)
  | overflowExpiry addr => exact taken_settled h (overflowExpires_settled s addr _)
  | decideTimeExpiry addr slot => exact taken_settled h (decide_settled s addr slot)
  | pairingWindowExpiry => exact taken_settled h (checked_settled fun _ => (endPairing_plain s _).settled)
  | verifyExpiry =>
    exact taken_settled h (checked_settled fun hv =>
      (failedAttempt_plain s (by rw [hv.1]; decide) (by rw [hv.1]; decide)).settled)
  | confirmExpiry => exact taken_settled h (checked_settled fun _ => (commit_plain s).settled)
  | storeWriteCompletion success =>
    refine taken_settled h ?_
    cases s.store.inFlight with
    | some w => exact (completeWrite_plain s w success).settled
    | none => exact .refl s

/-- Every step keeps the invariants. -/
theorem step_settled {s t : State} (h : step s = .next t) : Settled s t := by
  unfold step at h
  split at h
  · obtain rfl := Outcome.next.inj h
    exact .refl s
  · next c rest _ =>
    have taken : Plain s { s with pending := rest } := {}
    exact taken.settled.trans (exec_settled c _ t h)

end Sys2Proof.Proofs.Kept

namespace Sys2Proof.Proofs.Invariants

open Sys2Proof Sys2Proof.Machine Host Kept

/-- Settles O53, through what every event keeps. -/
theorem stepKeepsTrackFollowers : Obligations.StepKeepsTrackFollowers := by
  unfold Obligations.StepKeepsTrackFollowers
  exact fun s t h hstep => (step_settled hstep).keeps.followers h

/-- Settles O54, the auto-caution requests apart from the other queues. -/
theorem stepKeepsQueuesBounded : Obligations.StepKeepsQueuesBounded := by
  unfold Obligations.StepKeepsQueuesBounded
  intro s t h hstep
  have hk := step_settled hstep
  have ht := hk.keeps.queues ⟨h.unbound, h.notices, h.throws, h.decisions, h.sending, rfl, h.writes⟩
  exact ⟨ht.unbound, ht.notices, ht.throws, ht.decisions, ht.sending, hk.requests h.requests, ht.writes⟩

/-- Settles O55. -/
theorem stepKeepsRegistry : Obligations.StepKeepsRegistry := by
  unfold Obligations.StepKeepsRegistry
  exact fun s t h hstep => (step_settled hstep).keeps.registry h

/-- Settles O56. -/
theorem stepKeepsStandbyQuiet : Obligations.StepKeepsStandbyQuiet := by
  unfold Obligations.StepKeepsStandbyQuiet
  exact fun s t h hstep => (step_settled hstep).keeps.quiet h

/-- Settles O57, the two invariants of the claims taken as one. -/
theorem stepKeepsClaimLists : Obligations.StepKeepsClaimLists := by
  unfold Obligations.StepKeepsClaimLists
  exact fun s t h hstep => (claimsKept_iff t).mp ((step_settled hstep).claims ((claimsKept_iff s).mpr h))

/-- Settles O58. -/
theorem stepKeepsCars : Obligations.StepKeepsCars := by
  unfold Obligations.StepKeepsCars
  exact fun s t h hstep => (step_settled hstep).keeps.cars h

/-- Settles O59. -/
theorem stepKeepsIdentities : Obligations.StepKeepsIdentities := by
  unfold Obligations.StepKeepsIdentities
  exact fun s t h hstep => (step_settled hstep).keeps.identities h

/-- Settles O60: the state after a reset holds every block at its POR values. -/
theorem resetMeetsTheInvariants : Obligations.ResetMeetsTheInvariants := by
  unfold Obligations.ResetMeetsTheInvariants
  have h := reset_sound
  obtain ⟨hlists, hallowed⟩ := (claimsKept_iff _).mp h.claims
  exact ⟨h.followers, h.queues, h.registry, h.quiet, hlists, hallowed, h.cars, h.identities⟩

end Sys2Proof.Proofs.Invariants
end

section
/-! PROOFS. How commands reach the block: the front of the queue, the two guards, and the arguments that no command has. -/

namespace Sys2Proof.Proofs.Taking

open Sys2Proof Sys2Proof.Machine Host

/-- Settles O1: a step is the front command on the rest of the queue. -/
theorem stepTakesFrontCommand : Obligations.StepTakesFrontCommand := fun _ _ _ => rfl

/-! ### Held and unserved parts -/

/-- Every console command goes through the guard of the Console Port. -/
theorem exec_console {i : Instr} {p : Byte × List Byte} (hp : consoleParts i = some p) (s : State) :
    ∃ (α : Type) (request : Option α) (run : α → State → State), exec i s = s.serve request run := by
  unfold exec
  cases i with
  | transactionDiscard _ | softReset | powerOnReset | rstPinReset | resetRelease | storeLoadCompletion | handsetFrame _
  | handsetContinuityTimeout | unboundAgeOut _ | watchExpiry _ | noticeCompletion | frameStart | settleCompletion
  | burstCompletion | railfltAssertion | railfltDeassertion | lfsrStep | nodeFrame _ | silenceExpiry _
  | throwTransmitStart | throwCompletion | claimLapse _ _ | overflowExpiry _ | decideTimeExpiry _ _
  | pairingWindowExpiry | verifyExpiry | confirmExpiry | storeWriteCompletion _ | handsetCharacter _ _ => exact nomatch hp
  | _ => exact ⟨_, _, _, rfl⟩

/-- Every other event but the resets and RAILFLT's goes through the guard of the hold, or changes nothing. -/
theorem exec_event_of_held {i : Instr} (hp : consoleParts i = none) {s : State} (h : s.held = true)
    (hpor : i ≠ .powerOnReset) (hrst : i ≠ .rstPinReset) (hrel : i ≠ .resetRelease) (ha : i ≠ .railfltAssertion)
    (hd : i ≠ .railfltDeassertion) : exec i s = .next s := by
  unfold exec
  cases i with
  | powerOnReset => exact absurd rfl hpor
  | rstPinReset => exact absurd rfl hrst
  | resetRelease => exact absurd rfl hrel
  | railfltAssertion => exact absurd rfl ha
  | railfltDeassertion => exact absurd rfl hd
  | transactionDiscard _ => rfl
  | softReset | storeLoadCompletion | handsetFrame _ | handsetContinuityTimeout | unboundAgeOut _ | watchExpiry _
  | noticeCompletion | frameStart | settleCompletion | burstCompletion | lfsrStep | nodeFrame _ | silenceExpiry _
  | throwTransmitStart | throwCompletion | claimLapse _ _ | overflowExpiry _ | decideTimeExpiry _ _
  | pairingWindowExpiry | verifyExpiry | confirmExpiry | storeWriteCompletion _ | handsetCharacter _ _ =>
    exact take_of_held h
  | _ => exact nomatch hp

theorem exec_of_held {i : Instr} {s : State} (h : s.held = true) (hpor : i ≠ .powerOnReset) (hrst : i ≠ .rstPinReset)
    (hrel : i ≠ .resetRelease) (ha : i ≠ .railfltAssertion) (hd : i ≠ .railfltDeassertion) : exec i s = .next s := by
  cases hp : consoleParts i with
  | none => exact exec_event_of_held hp h hpor hrst hrel ha hd
  | some p =>
    obtain ⟨_, request, run, he⟩ := exec_console hp s
    rw [he, serve_of_held request h]

theorem exec_railfltAssertion_of_held {s : State} (h : s.held = true) :
    exec .railfltAssertion s = .next { s with railflt := true } := by
  show execRailfltAssertion s = _
  rw [execRailfltAssertion, if_pos h]

/-- Settles O2, by the two guards. -/
theorem heldAndUnservedPartsTakeNothing : Obligations.HeldAndUnservedPartsTakeNothing := by
  refine ⟨fun i s h hpor hrst hrel => ?held, fun i code args s hp h hs => ?unserved⟩
  case held =>
    by_cases ha : i = .railfltAssertion
    · rw [if_pos ha, ha, exec_railfltAssertion_of_held h]
    · by_cases hd : i = .railfltDeassertion
      · rw [if_neg ha, if_pos hd, hd]
        rfl
      · rw [if_neg ha, if_neg hd, exec_of_held h hpor hrst hrel ha hd]
  case unserved =>
    obtain ⟨_, request, run, he⟩ := exec_console hp s
    rw [he, serve_of_unserved request h hs]
    rfl

end Sys2Proof.Proofs.Taking
end

section
/-! PROOFS. The console commands by their operations, and the arguments that are refused (R182). -/

namespace Sys2Proof.Proofs.Arguments

open Sys2Proof Sys2Proof.Machine Host CarTable

/-! ### The commands with arguments -/

theorem exec_setOptions (args : List Byte) (s : State) :
    exec (.setOptions args) s = s.serve (parseOptions args) fun q s => s.setOptions q := rfl

theorem exec_setRail (args : List Byte) (s : State) :
    exec (.setRail args) s = s.serve (parseRail args) fun q s => s.setRail q := rfl

theorem exec_setCar (args : List Byte) (s : State) :
    exec (.setCar args) s = s.serve (parseCar args) fun q s => s.setCarParams q := rfl

theorem exec_setCurve (args : List Byte) (s : State) :
    exec (.setCurve args) s = s.serve (parseCurve args) fun q s => s.setCurve q := rfl

theorem exec_setWatch (args : List Byte) (s : State) :
    exec (.setWatch args) s = s.serve (parseWatch args) fun q s => s.setWatchTimeout q := rfl

theorem exec_unbind (args : List Byte) (s : State) :
    exec (.unbind args) s = s.serve (parseSlot args) fun k s => s.unbind k := rfl

theorem exec_readCar (args : List Byte) (s : State) :
    exec (.readCar args) s = s.serve (parseSlot args) fun k s => s.respond .ok (s.car k).bytes := rfl

theorem exec_setNode (args : List Byte) (s : State) :
    exec (.setNode args) s = s.serve (parseNode args) fun q s => s.setNodeRole q := rfl

theorem exec_readNode (args : List Byte) (s : State) :
    exec (.readNode args) s = s.serve (parseAddr args) fun a s => s.respond .ok (s.node a).bytes := rfl

theorem exec_setSection (args : List Byte) (s : State) :
    exec (.setSection args) s = s.serve (parseSection args) fun q s => s.setSectionMap q := rfl

theorem exec_openSection (args : List Byte) (s : State) :
    exec (.openSection args) s = s.serve (parseAddr args) fun a s => s.openSection a := rfl

theorem exec_closeSection (args : List Byte) (s : State) :
    exec (.closeSection args) s = s.serve (parseClose args) fun q s => s.closeSection q := rfl

theorem exec_readSection (args : List Byte) (s : State) :
    exec (.readSection args) s = s.serve (parseAddr args) fun a s => s.readSection a := rfl

theorem exec_openPairing (args : List Byte) (s : State) :
    exec (.openPairing args) s = s.serve (parseOpenPairing args) fun mode s => s.openPairing mode := rfl

theorem exec_setPairing (args : List Byte) (s : State) :
    exec (.setPairing args) s = s.serve (parsePairing args) fun q s => s.setPairing q := rfl

theorem exec_readPairing (args : List Byte) (s : State) :
    exec (.readPairing args) s = s.serve (parseNone args) fun _ s => s.respond .ok (s.pairing.bytes ++ s.result.bytes) := rfl

theorem exec_readUnbound (args : List Byte) (s : State) :
    exec (.readUnbound args) s = s.serve (parseNone args) fun _ s =>
      s.respond .ok (byte1 s.unbound.length :: s.unbound.flatMap UnboundEntry.bytes) := rfl

theorem exec_readStatus (args : List Byte) (s : State) :
    exec (.readStatus args) s = s.serve (parseNone args) fun _ s => s.respond .ok s.statusBytes := rfl

theorem exec_reset (args : List Byte) (s : State) :
    exec (.reset args) s = s.serve (parseNone args) fun _ s => ({ s with softResetDue := true }).respond .ok [] := rfl

theorem exec_unknownCommand (code : Byte) (args : List Byte) (s : State) :
    exec (.unknownCommand code args) s = s.serve (none : Option Unit) fun _ s => s := rfl

/-- A command whose arguments are read runs its operation. -/
theorem exec_of_read {α : Type} {i : Instr} {s : State} {request : Option α} {run : α → State → State} {q : α}
    (he : exec i s = s.serve request run) (hs : Served s) (hq : request = some q) : exec i s = .next (run q s) := by
  rw [he, hq, serve_some_of_served q hs]

/-- A command whose arguments are not read is answered BAD_ARG and changes nothing else (R182). -/
theorem exec_of_unread {α : Type} {i : Instr} {s : State} {request : Option α} {run : α → State → State}
    (he : exec i s = s.serve request run) (hs : Served s) (hq : request = none) :
    exec i s = .next { s with response := some { status := .badArg, data := [] } } := by
  rw [he, hq, serve_none_of_served hs]
  rfl

/-! ### Argument counts -/

theorem parseNone_of_length {args : List Byte} (h : args.length ≠ 0) : parseNone args = none := by
  unfold parseNone
  split
  · exact absurd rfl h
  · rfl

theorem parseSlot_of_length {args : List Byte} (h : args.length ≠ 1) : parseSlot args = none := by
  unfold parseSlot
  split
  · exact absurd rfl h
  · rfl

theorem parseAddr_of_length {args : List Byte} (h : args.length ≠ 1) : parseAddr args = none := by
  unfold parseAddr
  split
  · exact absurd rfl h
  · rfl

theorem parseMask_of_length {args : List Byte} (h : args.length ≠ 1) : parseMask args = none := by
  unfold parseMask
  split
  · exact absurd rfl h
  · rfl

theorem parseOptions_of_length {args : List Byte} (h : args.length ≠ 7) : parseOptions args = none := by
  unfold parseOptions
  split
  · exact absurd rfl h
  · rfl

theorem parseRail_of_length {args : List Byte} (h : args.length ≠ 3) : parseRail args = none := by
  unfold parseRail
  split
  · exact absurd rfl h
  · rfl

theorem parseCar_of_length {args : List Byte} (h : args.length ≠ 16) : parseCar args = none := by
  unfold parseCar
  split
  · exact absurd rfl h
  · rfl

theorem parseCurve_of_length {args : List Byte} (h : args.length ≠ 11) : parseCurve args = none := by
  unfold parseCurve
  split
  · exact absurd rfl h
  · rfl

theorem parseWatch_of_length {args : List Byte} (h : args.length ≠ 3) : parseWatch args = none := by
  unfold parseWatch
  split
  · exact absurd rfl h
  · rfl

theorem parseDrive_of_length {args : List Byte} (h : args.length ≠ 3) : parseDrive args = none := by
  unfold parseDrive
  split
  · exact absurd rfl h
  · rfl

theorem parseNode_of_length {args : List Byte} (h : args.length ≠ 2) : parseNode args = none := by
  unfold parseNode
  split
  · exact absurd rfl h
  · rfl

theorem parseSection_of_length {args : List Byte} (h : args.length ≠ 24) : parseSection args = none := by
  unfold parseSection
  split
  · exact absurd rfl h
  · rfl

theorem parseClose_of_length {args : List Byte} (h : args.length ≠ 2) : parseClose args = none := by
  unfold parseClose
  split
  · exact absurd rfl h
  · rfl

theorem parseOpenPairing_of_length {args : List Byte} (h : args.length ≠ 1) : parseOpenPairing args = none := by
  unfold parseOpenPairing
  split
  · exact absurd rfl h
  · rfl

theorem parsePairing_of_length {args : List Byte} (h : args.length ≠ 9) : parsePairing args = none := by
  unfold parsePairing
  split
  · exact absurd rfl h
  · rfl

/-- A command of another argument count than its own is not read. -/
theorem exec_of_wrong_length {i : Instr} {code : Byte} {args : List Byte} {n : Nat} {s : State} (hs : Served s)
    (hp : consoleParts i = some (code, args)) (hn : argLength i = some n) (h : args.length ≠ n) :
    exec i s = .next { s with response := some { status := .badArg, data := [] } } := by
  cases i with
  | wake _ | sleep _ | halt _ | go _ | caution _ | closePairing _ | wipeBindings _ | newRace _ | readDecision _
  | clearCounters _ =>
    cases hp
    cases hn
    exact exec_of_unread (request := parseNone args) rfl hs (parseNone_of_length h)
  | readPairing _ =>
    cases hp
    cases hn
    exact exec_of_unread (exec_readPairing args s) hs (parseNone_of_length h)
  | readUnbound _ =>
    cases hp
    cases hn
    exact exec_of_unread (exec_readUnbound args s) hs (parseNone_of_length h)
  | readStatus _ =>
    cases hp
    cases hn
    exact exec_of_unread (exec_readStatus args s) hs (parseNone_of_length h)
  | reset _ =>
    cases hp
    cases hn
    exact exec_of_unread (exec_reset args s) hs (parseNone_of_length h)
  | setOptions _ =>
    cases hp
    cases hn
    exact exec_of_unread (exec_setOptions args s) hs (parseOptions_of_length h)
  | setRail _ =>
    cases hp
    cases hn
    exact exec_of_unread (exec_setRail args s) hs (parseRail_of_length h)
  | setCar _ =>
    cases hp
    cases hn
    exact exec_of_unread (exec_setCar args s) hs (parseCar_of_length h)
  | setCurve _ =>
    cases hp
    cases hn
    exact exec_of_unread (exec_setCurve args s) hs (parseCurve_of_length h)
  | setWatch _ =>
    cases hp
    cases hn
    exact exec_of_unread (exec_setWatch args s) hs (parseWatch_of_length h)
  | drive _ =>
    cases hp
    cases hn
    exact exec_of_unread (exec_drive args s) hs (parseDrive_of_length h)
  | armLane _ =>
    cases hp
    cases hn
    exact exec_of_unread (exec_armLane args s) hs (parseSlot_of_length h)
  | unbind _ =>
    cases hp
    cases hn
    exact exec_of_unread (exec_unbind args s) hs (parseSlot_of_length h)
  | readCar _ =>
    cases hp
    cases hn
    exact exec_of_unread (exec_readCar args s) hs (parseSlot_of_length h)
  | setNode _ =>
    cases hp
    cases hn
    exact exec_of_unread (exec_setNode args s) hs (parseNode_of_length h)
  | readNode _ =>
    cases hp
    cases hn
    exact exec_of_unread (exec_readNode args s) hs (parseAddr_of_length h)
  | setSection _ =>
    cases hp
    cases hn
    exact exec_of_unread (exec_setSection args s) hs (parseSection_of_length h)
  | openSection _ =>
    cases hp
    cases hn
    exact exec_of_unread (exec_openSection args s) hs (parseAddr_of_length h)
  | closeSection _ =>
    cases hp
    cases hn
    exact exec_of_unread (exec_closeSection args s) hs (parseClose_of_length h)
  | readSection _ =>
    cases hp
    cases hn
    exact exec_of_unread (exec_readSection args s) hs (parseAddr_of_length h)
  | openPairing _ =>
    cases hp
    cases hn
    exact exec_of_unread (exec_openPairing args s) hs (parseOpenPairing_of_length h)
  | setPairing _ =>
    cases hp
    cases hn
    exact exec_of_unread (exec_setPairing args s) hs (parsePairing_of_length h)
  | ackEvents _ =>
    cases hp
    cases hn
    exact exec_of_unread (ConsolePort.exec_ackEvents args s) hs (parseMask_of_length h)
  | setEventEnable _ =>
    cases hp
    cases hn
    exact exec_of_unread (ConsolePort.exec_setEventEnable args s) hs (parseMask_of_length h)
  | unknownCommand _ _ => exact nomatch hn
  | _ => exact nomatch hp

/-! ### Slots, addresses and codes -/

theorem slotOfByte_none {b : Byte} (h : b.toNat = 0 ∨ 8 < b.toNat) : slotOfByte b = none := dif_neg (by omega)

theorem addrOfByte_none {b : Byte} (h : b.toNat = 0 ∨ 15 < b.toNat) : addrOfByte b = none := dif_neg (by omega)

/-- A code byte past the last of a two-valued field. -/
theorem twoCodes_none {b : Byte} (h : 1 < b.toNat) :
    cautionLanesOfByte b = none ∧ enabledOfByte b = none ∧ pointerModeOfByte b = none ∧ laneModeOfByte b = none
      ∧ retryModeOfByte b = none ∧ curveSetOfByte b = none ∧ closeModeOfByte b = none := by
  unfold cautionLanesOfByte enabledOfByte pointerModeOfByte laneModeOfByte retryModeOfByte curveSetOfByte closeModeOfByte
  generalize b.toNat = n at h
  match n with
  | n + 2 => exact ⟨rfl, rfl, rfl, rfl, rfl, rfl, rfl⟩

theorem roleOfByte_none {b : Byte} (h : 3 < b.toNat) : roleOfByte b = none := by
  unfold roleOfByte
  generalize b.toNat = n at h
  match n with
  | n + 4 => rfl

theorem marksDefined_of_lt {m n : Nat} (h : m < 2 ^ n) : marksDefined m n = true := decide_eq_true h

theorem marksDefined_of_le {m n : Nat} (h : 2 ^ n ≤ m) : marksDefined m n = false := decide_eq_false (Nat.not_lt.mpr h)

theorem givenCode_none {α : Type} {marks i : Nat} (h : marks.testBit i = true) : givenCode marks i (none : Option α) = none := by
  unfold givenCode
  rw [if_pos h]
  rfl

/-! ### What each reading asks of the first bytes -/

theorem parseSlot_of_none {b : Byte} {rest : List Byte} (h : slotOfByte b = none) : parseSlot (b :: rest) = none := by
  unfold parseSlot
  split
  · next e => cases e; exact h
  · rfl

theorem parseCar_of_none {b : Byte} {rest : List Byte} (h : slotOfByte b = none) : parseCar (b :: rest) = none := by
  unfold parseCar
  split
  · next e => cases e; simp [h]
  · rfl

theorem parseCurve_of_none {b : Byte} {rest : List Byte} (h : slotOfByte b = none) : parseCurve (b :: rest) = none := by
  unfold parseCurve
  split
  · next e => cases e; simp [h]
  · rfl

theorem parseWatch_of_none {b : Byte} {rest : List Byte} (h : slotOfByte b = none) : parseWatch (b :: rest) = none := by
  unfold parseWatch
  split
  · next e => cases e; simp [h]
  · rfl

theorem parseDrive_of_none {b : Byte} {rest : List Byte} (h : slotOfByte b = none) : parseDrive (b :: rest) = none := by
  unfold parseDrive
  split
  · next e => cases e; simp [h]
  · rfl

theorem parseAddr_of_none {b : Byte} {rest : List Byte} (h : addrOfByte b = none) : parseAddr (b :: rest) = none := by
  unfold parseAddr
  split
  · next e => cases e; exact h
  · rfl

theorem parseNode_of_none {b : Byte} {rest : List Byte} (h : addrOfByte b = none) : parseNode (b :: rest) = none := by
  unfold parseNode
  split
  · next e => cases e; simp [h]
  · rfl

theorem parseSection_of_none {b : Byte} {rest : List Byte} (h : addrOfByte b = none) : parseSection (b :: rest) = none := by
  unfold parseSection
  split
  · next e => cases e; simp [h]
  · rfl

theorem parseClose_of_none {b : Byte} {rest : List Byte} (h : addrOfByte b = none) : parseClose (b :: rest) = none := by
  unfold parseClose
  split
  · next e => cases e; simp [h]
  · rfl

theorem parseOpenPairing_of_none {b : Byte} (h : 8 < b.toNat) : parseOpenPairing [b] = none := by
  have h0 : b ≠ 0 := fun e => by rw [e] at h; exact absurd h (by decide)
  show (if b = 0 then some PairingMode.auto else (slotOfByte b).map .slot) = none
  rw [if_neg h0, slotOfByte_none (.inr h)]
  rfl

theorem parseClose_of_mode {a m : Byte} (h : 1 < m.toNat) : parseClose [a, m] = none := by
  obtain ⟨-, -, -, -, -, -, hm⟩ := twoCodes_none h
  unfold parseClose
  simp [hm]

theorem parseNode_of_role {a r : Byte} (h : 3 < r.toNat) : parseNode [a, r] = none := by
  unfold parseNode
  simp [roleOfByte_none h]

theorem parseCurve_of_set {k c : Byte} {rest : List Byte} (h : 1 < c.toNat) : parseCurve (k :: c :: rest) = none := by
  obtain ⟨-, -, -, -, -, hc, -⟩ := twoCodes_none h
  unfold parseCurve
  split
  · next e => cases e; simp [hc]
  · rfl

theorem parseDrive_of_mark {k m : Byte} {rest : List Byte} (h : 1 < m.toNat) : parseDrive (k :: m :: rest) = none := by
  unfold parseDrive
  split
  · next e =>
    cases e
    split
    · omega
    · omega
    · rfl
  · rfl

theorem parseOptions_of_marks {m : Byte} {rest : List Byte} (h : 64 ≤ m.toNat) : parseOptions (m :: rest) = none := by
  unfold parseOptions
  split
  · next e => cases e; simp [marksDefined_of_le (n := 6) h]
  · rfl

theorem parseRail_of_marks {m : Byte} {rest : List Byte} (h : 4 ≤ m.toNat) : parseRail (m :: rest) = none := by
  unfold parseRail
  split
  · next e => cases e; simp [marksDefined_of_le (n := 2) h]
  · rfl

theorem parsePairing_of_marks {m : Byte} {rest : List Byte} (h : 32 ≤ m.toNat) : parsePairing (m :: rest) = none := by
  unfold parsePairing
  split
  · next e => cases e; simp [marksDefined_of_le (n := 5) h]
  · rfl

theorem nat2_ge {m1 : Byte} (m0 : Byte) (h : 16 ≤ m1.toNat) : 2 ^ 12 ≤ nat2 m1 m0 := by
  unfold nat2
  omega

theorem parseCar_of_marks {a m1 : Byte} {rest : List Byte} (h : 16 ≤ m1.toNat) : parseCar (a :: m1 :: rest) = none := by
  unfold parseCar
  split
  · next e => cases e; simp [marksDefined_of_le (nat2_ge _ h)]
  · rfl

theorem parseSection_of_marks {a m1 : Byte} {rest : List Byte} (h : 16 ≤ m1.toNat) :
    parseSection (a :: m1 :: rest) = none := by
  unfold parseSection
  split
  · next e => cases e; simp [marksDefined_of_le (nat2_ge _ h)]
  · rfl

/-! ### Marked fields that are undefined -/

theorem testBit_byte (b : Byte) (i : Nat) : b.toNat.testBit i = b.getLsbD i := rfl

/-- The marks of two bytes: bits 0 to 7 are those of the second. -/
theorem nat2_testBit_low (m1 m0 : Byte) {i : Nat} (h : i < 8) : (nat2 m1 m0).testBit i = m0.getLsbD i := by
  unfold nat2
  rw [Nat.mul_comm, show (256 : Nat) = 2 ^ 8 from rfl, Nat.testBit_two_pow_mul_add _ m0.isLt, if_pos h]
  rfl

theorem nat2_testBit_high (m1 m0 : Byte) (i : Nat) : (nat2 m1 m0).testBit (8 + i) = m1.getLsbD i := by
  unfold nat2
  rw [Nat.mul_comm, show (256 : Nat) = 2 ^ 8 from rfl, Nat.testBit_two_pow_mul_add _ m0.isLt, if_neg (by omega),
    Nat.add_sub_cancel_left]
  rfl

theorem parseOptions_of_code {m v0 v1 v2 v3 v4 v5 : Byte}
    (h : givenCode m.toNat 0 (cautionLanesOfByte v0) = none ∨ givenCode m.toNat 1 (enabledOfByte v1) = none
      ∨ givenCode m.toNat 2 (pointerModeOfByte v2) = none ∨ givenCode m.toNat 3 (enabledOfByte v3) = none
      ∨ givenCode m.toNat 4 (enabledOfByte v4) = none ∨ givenCode m.toNat 5 (enabledOfByte v5) = none) :
    parseOptions [m, v0, v1, v2, v3, v4, v5] = none := by
  unfold parseOptions
  dsimp only
  split
  · split
    · next h0 h1 h2 h3 h4 h5 => simp [h0, h1, h2, h3, h4, h5] at h
    · rfl
  · rfl

theorem parseCar_of_code {k m1 m0 lo hi lim acc dec fade lane retry w1 w0 up dn len : Byte}
    (h : givenCode (nat2 m1 m0) 6 (laneModeOfByte lane) = none ∨ givenCode (nat2 m1 m0) 7 (retryModeOfByte retry) = none) :
    parseCar [k, m1, m0, lo, hi, lim, acc, dec, fade, lane, retry, w1, w0, up, dn, len] = none := by
  unfold parseCar
  dsimp only
  split
  · split
    · next h1 h2 => simp [h1, h2] at h
    · rfl
  · rfl

theorem parseSection_of_code {a m1 m0 ap1 ap0 cr1 cr0 st1 st0 la lad1 lad0 lb lbd1 lbd0 gd ld pu du co1 co0 ex1 ex0 an : Byte}
    (h : givenCode (nat2 m1 m0) 3 (linkOfBytes la lad1 lad0) = none
      ∨ givenCode (nat2 m1 m0) 4 (linkOfBytes lb lbd1 lbd0) = none) :
    parseSection [a, m1, m0, ap1, ap0, cr1, cr0, st1, st0, la, lad1, lad0, lb, lbd1, lbd0, gd, ld, pu, du, co1, co0, ex1,
      ex0, an] = none := by
  unfold parseSection
  dsimp only
  split
  · split
    · next h1 h2 => simp [h1, h2] at h
    · rfl
  · rfl

theorem linkOfBytes_none {a : Byte} (d1 d0 : Byte) (h : 15 < a.toNat) : linkOfBytes a d1 d0 = none := by
  have h0 : a ≠ 0 := fun e => by rw [e] at h; exact absurd h (by decide)
  rw [linkOfBytes, if_neg h0, addrOfByte_none (.inr h)]
  rfl

/-- A marked field of an undefined code. -/
theorem givenCode_undefined {α : Type} {marks i : Nat} {v : Option α} (h : marks.testBit i = true) (hv : v = none) :
    givenCode marks i v = none := by rw [hv, givenCode_none h]

/-- Settles O3: each malformed command is one whose reading gives nothing. -/
theorem structuralErrorsAnswerBadArg : Obligations.StructuralErrorsAnswerBadArg := by
  intro s hs refused
  have two {b : Byte} (h : 1 < b.toNat) := twoCodes_none h
  refine ⟨fun code args => exec_of_unread (exec_unknownCommand code args s) hs rfl,
    fun i code args n hp hn h => exec_of_wrong_length hs hp hn h, fun b rest hb i hi => ?slots, fun b rest hb i hi => ?addrs,
    fun b hb => exec_of_unread (exec_openPairing _ s) hs (parseOpenPairing_of_none hb),
    fun a m hm => exec_of_unread (exec_closeSection _ s) hs (parseClose_of_mode hm),
    fun a r hr => exec_of_unread (exec_setNode _ s) hs (parseNode_of_role hr),
    fun k c rest hc => exec_of_unread (exec_setCurve _ s) hs (parseCurve_of_set hc),
    fun k m rest hm => exec_of_unread (exec_drive _ s) hs (parseDrive_of_mark hm),
    fun m rest hm => exec_of_unread (exec_setOptions _ s) hs (parseOptions_of_marks hm),
    fun m rest hm => exec_of_unread (exec_setRail _ s) hs (parseRail_of_marks hm),
    fun m rest hm => exec_of_unread (exec_setPairing _ s) hs (parsePairing_of_marks hm),
    fun a m1 rest hm => ⟨exec_of_unread (exec_setCar _ s) hs (parseCar_of_marks hm),
      exec_of_unread (exec_setSection _ s) hs (parseSection_of_marks hm)⟩, fun m v0 v1 v2 v3 v4 v5 h => ?options,
    fun k m1 m0 lo hi lim acc dec fade lane retry w1 w0 up dn len h => ?modes,
    fun a m1 m0 ap1 ap0 cr1 cr0 st1 st0 la lad1 lad0 lb lbd1 lbd0 gd ld pu du co1 co0 ex1 ex0 an h => ?links⟩
  case slots =>
    have hb := slotOfByte_none hb
    simp only [List.mem_cons, List.not_mem_nil, or_false] at hi
    rcases hi with rfl | rfl | rfl | rfl | rfl | rfl | rfl
    · exact exec_of_unread (exec_setCar _ s) hs (parseCar_of_none hb)
    · exact exec_of_unread (exec_setCurve _ s) hs (parseCurve_of_none hb)
    · exact exec_of_unread (exec_setWatch _ s) hs (parseWatch_of_none hb)
    · exact exec_of_unread (exec_drive _ s) hs (parseDrive_of_none hb)
    · exact exec_of_unread (exec_armLane _ s) hs (parseSlot_of_none hb)
    · exact exec_of_unread (exec_unbind _ s) hs (parseSlot_of_none hb)
    · exact exec_of_unread (exec_readCar _ s) hs (parseSlot_of_none hb)
  case addrs =>
    have hb := addrOfByte_none hb
    simp only [List.mem_cons, List.not_mem_nil, or_false] at hi
    rcases hi with rfl | rfl | rfl | rfl | rfl | rfl
    · exact exec_of_unread (exec_setNode _ s) hs (parseNode_of_none hb)
    · exact exec_of_unread (exec_readNode _ s) hs (parseAddr_of_none hb)
    · exact exec_of_unread (exec_setSection _ s) hs (parseSection_of_none hb)
    · exact exec_of_unread (exec_openSection _ s) hs (parseAddr_of_none hb)
    · exact exec_of_unread (exec_closeSection _ s) hs (parseClose_of_none hb)
    · exact exec_of_unread (exec_readSection _ s) hs (parseAddr_of_none hb)
  case options =>
    refine exec_of_unread (exec_setOptions _ s) hs (parseOptions_of_code ?_)
    obtain ⟨x, hx, h1, h2⟩ := h
    simp only [List.mem_cons, List.not_mem_nil, or_false] at hx
    rcases hx with rfl | rfl | rfl | rfl | rfl | rfl
    · exact .inl (givenCode_undefined h1 (two h2).1)
    · exact .inr (.inl (givenCode_undefined h1 (two h2).2.1))
    · exact .inr (.inr (.inl (givenCode_undefined h1 (two h2).2.2.1)))
    · exact .inr (.inr (.inr (.inl (givenCode_undefined h1 (two h2).2.1))))
    · exact .inr (.inr (.inr (.inr (.inl (givenCode_undefined h1 (two h2).2.1)))))
    · exact .inr (.inr (.inr (.inr (.inr (givenCode_undefined h1 (two h2).2.1)))))
  case modes =>
    refine exec_of_unread (exec_setCar _ s) hs (parseCar_of_code (h.imp (fun h => ?_) fun h => ?_))
    · exact givenCode_undefined ((nat2_testBit_low m1 m0 (by decide)).trans h.1) (two h.2).2.2.2.1
    · exact givenCode_undefined ((nat2_testBit_low m1 m0 (by decide)).trans h.1) (two h.2).2.2.2.2.1
  case links =>
    refine exec_of_unread (exec_setSection _ s) hs (parseSection_of_code (h.imp (fun h => ?_) fun h => ?_))
    · exact givenCode_undefined ((nat2_testBit_low m1 m0 (by decide)).trans h.1) (linkOfBytes_none _ _ h.2)
    · exact givenCode_undefined ((nat2_testBit_low m1 m0 (by decide)).trans h.1) (linkOfBytes_none _ _ h.2)

end Sys2Proof.Proofs.Arguments
end

section
/-! PROOFS. What stands on the Console Port's lines: the frame that spells a command, and what the part sends (R179, R180). -/

namespace Sys2Proof.Proofs.ConsoleLines

open Sys2Proof Sys2Proof.Machine Host Laws

/-- The frame of every command is read back. -/
theorem frame_read (i : Instr) : ConsoleFrame.Statement i := by
  cases i with
  | unknownCommand code args => exact ConsoleFrame.unknownCommand code args
  | transactionDiscard _ | softReset | powerOnReset | rstPinReset | resetRelease | storeLoadCompletion | handsetFrame _
  | handsetContinuityTimeout | unboundAgeOut _ | watchExpiry _ | noticeCompletion | frameStart | settleCompletion
  | burstCompletion | railfltAssertion | railfltDeassertion | lfsrStep | nodeFrame _ | silenceExpiry _
  | throwTransmitStart | throwCompletion | claimLapse _ _ | overflowExpiry _ | decideTimeExpiry _ _
  | pairingWindowExpiry | verifyExpiry | confirmExpiry | storeWriteCompletion _ | handsetCharacter _ _ =>
    exact ConsoleFrame.of_none rfl
  | _ => exact ConsoleFrame.of_code rfl rfl of_decide_eq_true

/-- A well-formed command's arguments fit the length byte. -/
theorem args_length {i : Instr} {code : Byte} {args : List Byte} (hp : consoleParts i = some (code, args))
    (hw : WellFormed i = true) : args.length ≤ 255 := by
  cases i with
  | unknownCommand _ _ =>
    cases hp
    exact of_decide_eq_true (Bool.and_eq_true_iff.mp hw).1
  | transactionDiscard _ | softReset | powerOnReset | rstPinReset | resetRelease | storeLoadCompletion | handsetFrame _
  | handsetContinuityTimeout | unboundAgeOut _ | watchExpiry _ | noticeCompletion | frameStart | settleCompletion
  | burstCompletion | railfltAssertion | railfltDeassertion | lfsrStep | nodeFrame _ | silenceExpiry _
  | throwTransmitStart | throwCompletion | claimLapse _ _ | overflowExpiry _ | decideTimeExpiry _ _
  | pairingWindowExpiry | verifyExpiry | confirmExpiry | storeWriteCompletion _ | handsetCharacter _ _ => exact nomatch hp
  | _ =>
    cases hp
    exact of_decide_eq_true hw

/-- A line filled up past the characters clocked: how far past does not show. -/
theorem take_filled {α : Type} (l : List α) (x : α) {n m : Nat} (h : n ≤ l.length + m) :
    (l ++ List.replicate n x).take n = (l ++ List.replicate m x).take n := by
  rw [List.take_append, List.take_append, List.take_replicate, List.take_replicate]
  congr 2
  omega

/-- The data-out line of a completed command (R179). -/
theorem dataOut_of_answered {t : State} {r : Response} {code : Byte} {args tail : List Byte} (ht : t.held = false)
    (hr : t.response = some r) (hl : args.length ≤ 255) :
    t.dataOut (code :: BitVec.ofNat 8 args.length :: (args ++ tail))
      = ((List.replicate (args.length + 3) 0xFF#8 ++ r.bytes) ++ List.replicate tail.length 0xFF#8).take
          (args.length + 2 + tail.length) := by
  have hn : (BitVec.ofNat 8 args.length).toNat = args.length := by
    rw [BitVec.toNat_ofNat]
    omega
  have hlen : (code :: BitVec.ofNat 8 args.length :: (args ++ tail)).length = args.length + 2 + tail.length := by
    simp
    omega
  unfold State.dataOut
  dsimp only
  rw [hlen, hn, ht, hr, if_pos ⟨rfl, by simp⟩]
  refine take_filled _ _ ?_
  unfold answerLine
  dsimp only
  rw [List.length_append, List.length_replicate]
  omega

theorem dataOut_of_held {t : State} (ht : t.held = true) (bytes : List Byte) :
    t.dataOut bytes = List.replicate bytes.length 0xFF#8 := by
  have fill : (([] : List Byte) ++ List.replicate bytes.length 0xFF#8).take bytes.length
      = List.replicate bytes.length 0xFF#8 := by simp
  unfold State.dataOut
  rw [ht]
  split
  · rw [if_neg (by simp)]
    exact fill
  · exact fill

/-- Bytes that end before a command is complete spell none, and fill alone is sent (R180). -/
theorem incomplete_discarded {bytes : List Byte} (h : incompleteFrame bytes = true) :
    decodeConsole bytes = .transactionDiscard bytes ∧ ∀ t : State, t.dataOut bytes = List.replicate bytes.length 0xFF#8 := by
  match bytes with
  | [] => exact ⟨rfl, fun _ => rfl⟩
  | [_] => exact ⟨rfl, fun _ => rfl⟩
  | code :: len :: rest =>
    have hlt : rest.length < len.toNat := of_decide_eq_true h
    refine ⟨if_pos hlt, fun t => ?_⟩
    unfold State.dataOut
    dsimp only
    rw [if_neg fun e => absurd e.2 (Nat.not_le.mpr hlt)]
    exact List.take_of_length_le (by simp)

/-- Settles O4. -/
theorem commandFramesSpellCommands : Obligations.CommandFramesSpellCommands := by
  refine ⟨fun i frame tail hw hf => ?complete, fun bytes h => incomplete_discarded h⟩
  case complete =>
    refine ⟨frame_read i frame tail hw hf, ?_, fun t ht => ?_⟩
    · obtain ⟨p, hp, rfl⟩ := Option.map_eq_some_iff.mp hf
      intro t r ht hr
      exact dataOut_of_answered ht hr (args_length hp hw)
    · rw [dataOut_of_held ht, List.length_append]

end Sys2Proof.Proofs.ConsoleLines
end

section
/-! PROOFS. The track commands and the rail fault (R65 to R70), in the closed forms of a change of track state. -/

namespace Sys2Proof.Proofs.TrackCommands

open Sys2Proof Sys2Proof.Machine Host Arguments TrackStates

/-! ### The commands without arguments -/

theorem exec_sleep {s : State} (hs : Served s) : exec (.sleep []) s = .next s.sleep :=
  exec_of_read (request := parseNone []) (run := fun _ s => s.sleep) rfl hs rfl

theorem exec_halt {s : State} (hs : Served s) : exec (.halt []) s = .next s.haltTrack :=
  exec_of_read (request := parseNone []) (run := fun _ s => s.haltTrack) rfl hs rfl

theorem exec_go {s : State} (hs : Served s) : exec (.go []) s = .next s.goTrack :=
  exec_of_read (request := parseNone []) (run := fun _ s => s.goTrack) rfl hs rfl

theorem exec_caution {s : State} (hs : Served s) : exec (.caution []) s = .next s.cautionTrack :=
  exec_of_read (request := parseNone []) (run := fun _ s => s.cautionTrack) rfl hs rfl

/-! ### HALT, GO and CAUTION (R67, R68) -/

/-- Cars stopped by a change of track state (R53, R62). -/
theorem carFollows_halt : carFollows .halt = fun r => { r with target := 0, brakeRequest := true, output := 0 } :=
  funext fun r => carFollows_stopped .halt r rfl

theorem causeAfterLeaving_eq (t : TrackState) (c : Option CautionCause) :
    causeAfterLeaving t c = if t = .caution then none else c := by
  cases t <;> rfl

/-- What a denial of requests leaves of the fields that a change of track state sets. -/
theorem followed_requestsDenied (f : Car → Car) (t : TrackState) (c : Option CautionCause) (s : State) :
    followed f t c s.rail (requestsDenied s) = { requestsDenied s with
      track := t, cautionCause := c, flags := { (requestsDenied s).flags with state := true }
      cars := Vector.ofFn fun k : Slot => f (requestsDenied s).cars[k] } := by
  obtain ⟨ca, se, fl, de, ov, he, -⟩ := requestsDenied_other_fields s
  rw [he]
  rfl

theorem requestsDenied_track (s : State) : (requestsDenied s).track = s.track := by
  obtain ⟨ca, se, fl, de, ov, he, -⟩ := requestsDenied_other_fields s
  rw [he]

/-- The change to HALT from another state. -/
theorem changeTrack_halt {s : State} (hk : ClaimListsKept s) (h : s.track ≠ .halt) :
    s.changeTrack .halt = { requestsDenied s with
      track := .halt
      flags := { (requestsDenied s).flags with state := true }
      cautionCause := if s.track = .caution then none else s.cautionCause
      cars := Vector.ofFn fun k : Slot =>
        { (requestsDenied s).cars[k] with target := 0, brakeRequest := true, output := 0 } } := by
  rw [changeTrack_denying s .halt hk (.inl rfl) h, if_neg fun h => (nomatch h.1), followed_requestsDenied,
    causeAfterLeaving_eq, carFollows_halt]

/-- Settles O7: a change to HALT denies the requests and stops the cars. -/
theorem haltCommandOutcome : Obligations.HaltCommandOutcome := by
  intro s hs hk
  rw [exec_halt hs]
  refine ⟨fun ht => ?racing, fun ht => ?halted, fun ht => ?early⟩
  case racing =>
    have hrun : s.haltTrack = (s.changeTrack .halt).answerTrack .ok := by
      rcases ht with ht | ht <;> rw [State.haltTrack, ht]
    have hne : s.track ≠ .halt := by rcases ht with ht | ht <;> rw [ht] <;> decide
    rw [hrun, changeTrack_halt hk hne]
    generalize requestsDenied s = d
    rfl
  case halted =>
    have : s.haltTrack = s.answerTrack .ok := by rw [State.haltTrack, ht]
    rw [this, answerTrack_eq, ht]
    rfl
  case early =>
    have : s.haltTrack = s.answerTrack .notReady := by rcases ht with ht | ht <;> rw [State.haltTrack, ht]
    rw [this, answerTrack_eq]

/-- A change to RUN denies nothing: a crossing may be granted (R67, R151). -/
theorem changeTrack_run (s : State) : s.changeTrack .run = (s.beforeDenials .run).pairingFollows s.track := by
  rw [changeTrack_other s .run (by decide), denyForState_of_allowed _ rfl]

theorem stopBurst_rail (s : State) : s.stopBurst.rail = if s.rail.burst = .active then s.rail.burstIdle else s.rail := by
  unfold State.stopBurst
  cases s.rail.burst <;> rfl

/-- A pairing aborted where no burst is ACTIVE keeps the rails. -/
theorem pairingLeavesHalt_of_idle {s : State} (h : s.rail.burst = .idle) :
    s.pairingLeavesHalt = { pairingAborted s with rail := s.rail } := by
  unfold State.pairingLeavesHalt pairingAborted
  split_ifs with hp
  · rfl
  · rw [endPairing_ended s .aborted (by decide), pairingEnded, stopBurst_idle s h, ite_self]

/-- An abort of the pairing reads and writes nothing of the track, the cars and the rails but the stop request. -/
theorem pairingAborted_followed (f : Car → Car) (t : TrackState) (c : Option CautionCause) (r r' : Rail) (s : State) :
    { pairingAborted (followed f t c r s) with rail := r' }
      = followed f t c r' (pairingAborted s) := by
  unfold pairingAborted followed
  split_ifs <;> rfl

/-- Settles O8: leaving HALT stops the burst, then aborts the pairing, whose burst has stopped with the others. -/
theorem goCommandOutcome : Obligations.GoCommandOutcome := by
  intro s hs
  rw [exec_go hs]
  refine ⟨fun ht => ?leaves, fun ht => ?resumes, fun ht => ?running, fun ht => ?early⟩
  case leaves =>
    have hgo : s.goTrack = (s.changeTrack .run).answerTrack .ok := by rw [State.goTrack, ht]
    have hrail : (s.beforeDenials .run).rail = s.stopBurst.rail := if_pos ht
    have hidle : (s.beforeDenials .run).rail.burst = .idle := by rw [hrail]; exact stopBurst_burst s
    rw [hgo, changeTrack_run, State.pairingFollows, if_pos ht, pairingLeavesHalt_of_idle hidle, hrail, beforeDenials_eq,
      pairingAborted_followed, ht, stopBurst_rail]
    unfold pairingAborted followed
    split_ifs <;> rfl
  case resumes =>
    have hgo : s.goTrack = (s.changeTrack .run).answerTrack .ok := by rw [State.goTrack, ht]
    have hrail : (s.beforeDenials .run).rail = s.rail := if_neg (by rw [ht]; decide)
    rw [hgo, changeTrack_run, State.pairingFollows, if_neg (by rw [ht]; decide), beforeDenials_eq, hrail, ht]
    rfl
  case running =>
    have : s.goTrack = s.answerTrack .ok := by rw [State.goTrack, ht]
    rw [this, answerTrack_eq, ht]
    rfl
  case early =>
    have : s.goTrack = s.answerTrack .notReady := by rcases ht with ht | ht <;> rw [State.goTrack, ht]
    rw [this, answerTrack_eq]

/-- Settles O9: an entry to CAUTION, with the denials of its option. -/
theorem cautionCommandOutcome : Obligations.CautionCommandOutcome := by
  intro s hs hk
  rw [exec_caution hs]
  refine ⟨fun ht => ?racing, fun ht => ?refused⟩
  case racing =>
    have hrun : s.cautionTrack = (s.enterCaution .console).answerTrack .ok := by rw [State.cautionTrack, ht]
    have hopt : (if s.options.cautionLanes = .deny then requestsDenied s else s)
        = if s.options.cautionLanes = .allow then s else requestsDenied s := by
      cases s.options.cautionLanes <;> rfl
    rw [hrun, enterCaution_eq s .console hk ht, hopt]
    unfold cautioned
    generalize (if s.options.cautionLanes = .allow then s else requestsDenied s) = d
    rfl
  case refused =>
    have : s.cautionTrack = s.answerTrack .wrongState := by
      unfold State.cautionTrack
      split
      · exact absurd ‹_› ht
      · rfl
    rw [this, answerTrack_eq]

/-! ### SLEEP (R65, R66) -/

/-- The lowest slot that has a property. -/
theorem find_allSlots {p : Slot → Bool} {k : Slot} :
    allSlots.find? p = some k ↔ p k = true ∧ ∀ j, j < k → ¬ p j = true := by
  unfold allSlots
  fin_cases k <;> simp [Fin.forall_fin_succ] <;> tauto

theorem holdsWake_iff (s : State) (k : Slot) :
    ((s.car k).binding.isSome && decide ((s.car k).link = .live) && (s.car k).inputs.wake) = true ↔ HoldsWake s k := by
  simp [HoldsWake, and_assoc]

theorem heldWake_of_none {s : State} (h : ¬ WakeHeld s) : s.heldWake = none := by
  unfold State.heldWake
  split_ifs with he
  · refine List.find?_eq_none.mpr fun k _ hk => h ⟨he.1, he.2, k, (holdsWake_iff s k).mp hk⟩
  · rfl

theorem heldWake_of_lowest {s : State} {k : Slot} (ho : s.options.handsetWake = true) (hr : s.railflt = false)
    (hk : HoldsWake s k) (hl : ∀ j, j < k → ¬ HoldsWake s j) : s.heldWake = some k := by
  unfold State.heldWake
  rw [if_pos ⟨ho, hr⟩]
  exact find_allSlots.mpr ⟨(holdsWake_iff s k).mpr hk, fun j hj h => hl j hj ((holdsWake_iff s j).mp h)⟩

/-- A car that an entry to STANDBY has stopped is stopped at the entry to SETTLE as it is. -/
theorem enteredStandby_stays_stopped (s : State) :
    (Vector.ofFn fun k : Slot => carFollows .settle (enteredStandby s).cars[k]) = (enteredStandby s).cars := by
  ext i hi
  rw [Vector.getElem_ofFn, carFollows_stopped .settle _ rfl]
  unfold enteredStandby
  simp only [Fin.getElem_fin, Vector.getElem_ofFn]

theorem enteredStandby_quiet (s : State) : StandbyQuiet (enteredStandby s) := by
  refine fun _ => ⟨fun a sec hsec => ?_, rfl, fun k => ?_⟩
  · have hmap : (enteredStandby s).sectionAt a = (s.sectionAt a).map _ := Vector.getElem_ofFn a.isLt
    rw [hmap] at hsec
    obtain ⟨_, -, rfl⟩ := Option.map_eq_some_iff.mp hsec
    rfl
  · exact Vector.getElem_replicate k.isLt

theorem enteredStandby_raised (s : State) :
    ({ (enteredStandby s).flags with state := true } : LatchedFlags) = (enteredStandby s).flags := by
  unfold enteredStandby
  generalize requestsDenied s = d
  generalize (if s.track = .halt then pairingAborted s else s) = p
  rfl

theorem enteredStandby_now (s : State) : (enteredStandby s).now = s.now := by
  unfold enteredStandby pairingAborted
  split_ifs <;> rfl

/-- Settles O6: STANDBY as every follower makes it, and the wake of the lowest slot that holds one on top of it. -/
theorem sleepCommandOutcome : Obligations.SleepCommandOutcome := by
  intro s hs hk
  rw [exec_sleep hs]
  have hsleep (ht : s.track = .halt ∨ s.track = .settle) : s.sleep = s.goToSleep.answerTrack .ok := by
    rcases ht with ht | ht <;> rw [State.sleep, ht]
  refine ⟨fun ht hn => ?asleep, fun ht ho hr k hw hl => ?woken, fun ht => ?standby, fun ht => ?refused⟩
  case asleep =>
    have hgo : s.goToSleep = s.changeTrack .standby := by rw [State.goToSleep, heldWake_of_none hn]
    rw [hsleep ht, hgo, changeTrack_standby s hk]
    rfl
  case woken =>
    have hgo : s.goToSleep = (s.changeTrack .standby).wakeUp (.handset k) := by
      rw [State.goToSleep, heldWake_of_lowest ho hr hw hl]
    have hstate := enteredStandby_raised s
    rw [hsleep ht, hgo, changeTrack_standby s hk, State.wakeUp,
      changeTrack_settle_of_quiet (enteredStandby_quiet s) rfl, followed, enteredStandby_stays_stopped,
      hstate, ← enteredStandby_now s]
    generalize enteredStandby s = e
    rfl
  case standby =>
    have : s.sleep = s.answerTrack .ok := by rw [State.sleep, ht]
    rw [this, answerTrack_eq, ht]
    rfl
  case refused =>
    have : s.sleep = s.answerTrack .wrongState := by rcases ht with ht | ht <;> rw [State.sleep, ht]
    rw [this, answerTrack_eq]

/-! ### The settle completion and the rail fault (R69, R70) -/

theorem exec_settleCompletion (s : State) : exec .settleCompletion s
    = s.take fun s => if s.track = .settle ∧ s.rail.settleCounter = 0 then s.changeTrack .halt else s := rfl

theorem exec_burstCompletion (s : State) : exec .burstCompletion s = s.take fun s =>
    if s.rail.burstDone then ({ s with rail := s.rail.burstIdle }).burstCompleted s.rail.burstSlot else s := rfl

theorem carsFollow_halt (cs : Vector Car 8) :
    (Vector.ofFn fun k : Slot => carFollows .halt cs[k])
      = Vector.ofFn fun k : Slot => { cs[k] with target := 0, brakeRequest := true, output := 0 } := by
  rw [carFollows_halt]

/-- Settles O38: SETTLE holds no request, so that HALT denies none; a burst is done when its last program frame has been
begun. -/
theorem settleAndBurstCompletions : Obligations.SettleAndBurstCompletions := by
  intro s hs hr
  simp only [exec_settleCompletion, exec_burstCompletion, take_of_running hs]
  refine ⟨fun h => ?unsettled, fun ht hc => ?settled, fun hb n hn hle => ?done, fun h => ?running⟩
  case unsettled => rw [if_neg fun h' => h.elim (absurd h'.1) (absurd h'.2)]
  case settled =>
    have hpending : NoPending (s.beforeDenials .halt) := hr (by rw [ht]; decide) fun h => by rw [ht] at h; exact nomatch h.1
    have hrail : (s.beforeDenials .halt).rail = s.rail := if_neg (by rw [ht]; decide)
    rw [if_pos ⟨ht, hc⟩, changeTrack_other s .halt (by decide), denyForState_of_noPending hpending, State.pairingFollows,
      if_neg (by rw [ht]; decide), beforeDenials_eq, hrail, ht, followed, carsFollow_halt]
    rfl
  case done =>
    have hdone : s.rail.burstDone = true := by
      rw [Rail.burstDone, hb, hn]
      exact decide_eq_true hle
    rw [if_pos hdone, State.burstCompleted]
    dsimp only
    split_ifs <;> rfl
  case running =>
    have hdone : s.rail.burstDone = false := by
      rcases h with hb | ⟨n, hn, hlt⟩
      · rw [Rail.burstDone, hb]
      · cases hb : s.rail.burst with
        | idle => rw [Rail.burstDone, hb]
        | active =>
          rw [Rail.burstDone, hb, hn]
          exact decide_eq_false (Nat.not_le.mpr hlt)
    rw [hdone]
    rfl

/-- A state with the level of RAILFLT asserted, as it is set before the fault is taken. -/
def lineAsserted (s : State) : State := { s with railflt := true }

/-- A state with its options replaced. -/
def withOptions (o : Options) (s : State) : State := { s with options := o }

/-- A denial neither reads nor writes what a part of the state holds that f alone changes. -/
theorem requestsDenied_comm {f : State → State} (hd : ∀ s a ds, denials (f s) a ds = f (denials s a ds))
    (hq : ∀ s a, requestsAt (f s) .state a = requestsAt s .state a) (s : State) :
    requestsDenied (f s) = f (requestsDenied s) := by
  unfold requestsDenied
  generalize allAddrs = l
  induction l generalizing s with
  | nil => rfl
  | cons a l ih => rw [List.foldl_cons, List.foldl_cons, hq, hd, ih]

theorem requestsDenied_lineAsserted (s : State) : requestsDenied (lineAsserted s) = lineAsserted (requestsDenied s) := by
  refine requestsDenied_comm (f := lineAsserted) (fun s a ds => ?_) (fun _ _ => rfl) s
  cases h : s.sectionAt a with
  | none => rw [denials_none s a ds h, denials_none (lineAsserted s) a ds h]
  | some sec =>
    rw [denials_some s a ds sec h, denials_some (lineAsserted s) a ds sec h]
    rfl

theorem requestsDenied_withOptions (o : Options) (s : State) :
    requestsDenied (withOptions o s) = withOptions o (requestsDenied s) := by
  refine requestsDenied_comm (f := withOptions o) (fun s a ds => ?_) (fun _ _ => rfl) s
  cases h : s.sectionAt a with
  | none => rw [denials_none s a ds h, denials_none (withOptions o s) a ds h]
  | some sec =>
    rw [denials_some s a ds sec h, denials_some (withOptions o s) a ds sec h]
    rfl

theorem stopBurst_lineAsserted (s : State) : (lineAsserted s).stopBurst.rail = s.stopBurst.rail := by
  rw [stopBurst_rail, stopBurst_rail]
  rfl

theorem pairingAborted_lineAsserted (s : State) : pairingAborted (lineAsserted s) = lineAsserted (pairingAborted s) := by
  have hend : pairingEnded (lineAsserted s) .aborted = lineAsserted (pairingEnded s .aborted) := by
    unfold pairingEnded
    rw [stopBurst_lineAsserted]
    rfl
  unfold pairingAborted
  rw [hend]
  exact (apply_ite lineAsserted _ _ _).symm

theorem enteredStandby_lineAsserted (s : State) : enteredStandby (lineAsserted s) = lineAsserted (enteredStandby s) := by
  have hp : (if (lineAsserted s).track = .halt then pairingAborted (lineAsserted s) else lineAsserted s)
      = lineAsserted (if s.track = .halt then pairingAborted s else s) := by
    rw [pairingAborted_lineAsserted]
    exact (apply_ite lineAsserted _ _ _).symm
  unfold enteredStandby
  rw [requestsDenied_lineAsserted, stopBurst_lineAsserted, hp]
  generalize requestsDenied s = d
  generalize (if s.track = .halt then pairingAborted s else s) = p
  rfl

theorem exec_railfltAssertion (s : State) : exec .railfltAssertion s
    = if s.held then .next (lineAsserted s) else .next (lineAsserted s).railFault := rfl

/-- Settles O39: a fault outside STANDBY is the entry to STANDBY with the line asserted. -/
theorem railFaultEntersStandby : Obligations.RailFaultEntersStandby := by
  intro s
  refine ⟨rfl, fun h => ?level, fun hh ht hk => ?fault⟩
  case level =>
    rw [exec_railfltAssertion]
    rcases h with hh | ht
    · rw [if_pos hh]
      rfl
    · have : (lineAsserted s).railFault = lineAsserted s := by
        unfold State.railFault
        rw [show (lineAsserted s).track = .standby from ht]
      rw [this, ite_self]
      rfl
  case fault =>
    have hfault : (lineAsserted s).railFault
        = ({ (lineAsserted s).changeTrack .standby with railFaultNote := true }).raise .fault := by
      unfold State.railFault
      split
      · exact absurd ‹_› ht
      · rfl
    have hk' : ClaimListsKept (lineAsserted s) := hk
    rw [exec_railfltAssertion, if_neg (ne_true_of_eq_false hh), hfault, changeTrack_standby _ hk',
      enteredStandby_lineAsserted]
    generalize enteredStandby s = e
    rfl

end Sys2Proof.Proofs.TrackCommands
end

section
/-! PROOFS. The configuration commands: marked values, their clamps, and what each command replaces (R8, R16, R73, R80,
R109, R159). -/

namespace Sys2Proof.Proofs.Settings

open Sys2Proof Sys2Proof.Machine Host Arguments TrackCommands

/-! ### Marked values -/

theorem given_byte (m : Byte) (i v : Nat) : given m.toNat i v = if m.getLsbD i then some v else none := rfl

theorem given_low (m1 m0 : Byte) {i : Nat} (h : i < 8) (v : Nat) :
    given (nat2 m1 m0) i v = if m0.getLsbD i then some v else none := by
  rw [given, nat2_testBit_low m1 m0 h]

theorem given_high (m1 m0 : Byte) (i v : Nat) :
    given (nat2 m1 m0) (8 + i) v = if m1.getLsbD i then some v else none := by
  rw [given, nat2_testBit_high]

/-- A coded value that is defined where it is marked. -/
theorem givenCode_read {α : Type} {marks i : Nat} {v : Option α} {b : Bool} {x : α} (hb : marks.testBit i = b)
    (h : b = true → v = some x) : givenCode marks i v = some (if b then some x else none) := by
  unfold givenCode
  rw [hb]
  cases b with
  | false => rfl
  | true => rw [h rfl]; rfl

theorem getD_given {α : Type} (b : Bool) (x old : α) :
    (if b = true then some x else none).getD old = if b = true then x else old := by cases b <;> rfl

theorem isSome_given {α : Type} (b : Bool) (x : α) : (if b = true then some x else none).isSome = b := by cases b <;> rfl

theorem setParam_given (lo hi v old : Nat) (b : Bool) :
    setParam lo hi (if b = true then some v else none) old = if b = true then clamp lo hi v else old := by
  cases b <;> rfl

theorem clampChanges_given (lo hi v : Nat) (b : Bool) :
    clampChanges lo hi (if b = true then some v else none) = decide (b = true ∧ clamp lo hi v ≠ v) := by
  cases b <;> simp [clampChanges, bne, beq_eq_decide]

/-- A byte is below the upper end of a range that ends at 255. -/
theorem clamp_byte (lo : Nat) (b : Byte) : clamp lo 255 b.toNat = max lo b.toNat := by
  unfold clamp
  have := b.isLt
  omega

theorem okOrClamped_eq {b : Bool} {p : Prop} [Decidable p] (h : b = true ↔ p) :
    okOrClamped b = if p then .okClamped else .ok := by
  unfold okOrClamped
  exact if_congr h rfl rfl

/-- The code bytes of two-valued fields. -/
theorem twoCodes_read {b : Byte} (h : b.toNat ≤ 1) :
    cautionLanesOfByte b = some (if b = 0 then .allow else .deny) ∧ enabledOfByte b = some (decide (b = 0))
      ∧ pointerModeOfByte b = some (if b = 0 then .one else .random)
      ∧ laneModeOfByte b = some (if b = 0 then .hold else .latch)
      ∧ retryModeOfByte b = some (if b = 0 then .keep else .drop) := by
  obtain rfl | rfl : b = 0 ∨ b = 1 := by
    rcases Nat.le_one_iff_eq_zero_or_eq_one.mp h with h | h
    · exact .inl (BitVec.eq_of_toNat_eq h)
    · exact .inr (BitVec.eq_of_toNat_eq h)
  · exact ⟨rfl, rfl, rfl, rfl, rfl⟩
  · exact ⟨rfl, rfl, rfl, rfl, rfl⟩

/-! ### SET_OPTIONS (R73) -/

theorem parseOptions_read {m v0 v1 v2 v3 v4 v5 : Byte} (hm : m.toNat < 64)
    (h0 : m.getLsbD 0 = true → v0.toNat ≤ 1) (h1 : m.getLsbD 1 = true → v1.toNat ≤ 1)
    (h2 : m.getLsbD 2 = true → v2.toNat ≤ 1) (h3 : m.getLsbD 3 = true → v3.toNat ≤ 1)
    (h4 : m.getLsbD 4 = true → v4.toNat ≤ 1) (h5 : m.getLsbD 5 = true → v5.toNat ≤ 1) :
    parseOptions [m, v0, v1, v2, v3, v4, v5] = some
      { cautionLanes := if m.getLsbD 0 then some (if v0 = 0 then .allow else .deny) else none
        handsetWake := if m.getLsbD 1 then some (decide (v1 = 0)) else none
        pointerMode := if m.getLsbD 2 then some (if v2 = 0 then .one else .random) else none
        autoLapse := if m.getLsbD 3 then some (decide (v3 = 0)) else none
        autoLateConflict := if m.getLsbD 4 then some (decide (v4 = 0)) else none
        autoNodeFault := if m.getLsbD 5 then some (decide (v5 = 0)) else none } := by
  unfold parseOptions
  dsimp only
  rw [if_pos (marksDefined_of_lt (n := 6) hm), givenCode_read rfl fun h => (twoCodes_read (h0 h)).1,
    givenCode_read rfl fun h => (twoCodes_read (h1 h)).2.1, givenCode_read rfl fun h => (twoCodes_read (h2 h)).2.2.1,
    givenCode_read rfl fun h => (twoCodes_read (h3 h)).2.1, givenCode_read rfl fun h => (twoCodes_read (h4 h)).2.1,
    givenCode_read rfl fun h => (twoCodes_read (h5 h)).2.1]
  rfl

/-- The denials of a change of options, whole. -/
theorem denyForState_withOptions {s : State} {o : Options} (hk : ClaimListsKept s) (ht : s.track = .caution)
    (ho : o.cautionLanes = .deny) : (withOptions o s).denyForState = withOptions o (requestsDenied s) := by
  have hk' : ClaimListsKept (withOptions o s) := hk
  have hcross : (withOptions o s).crossingAllowed = false := by simp [State.crossingAllowed, withOptions, ht, ho]
  rw [denyForState_eq _ hk', hcross, requestsDenied_withOptions]
  rfl

/-- A change of options, whole (R73, R151). -/
theorem setOptions_eq {s : State} (hk : ClaimListsKept s) (q : OptionsReq) :
    s.setOptions q = { (if s.track = .caution ∧ s.options.cautionLanes = .allow ∧ (s.options.set q).cautionLanes = .deny then
        requestsDenied s else s) with
      options := s.options.set q
      response := some { status := .ok, data := Layout.options (s.options.set q) } } := by
  have hset : s.setOptions q = (fun u : State => u.respond .ok u.options.bytes)
      (if s.track = .caution ∧ s.options.cautionLanes = .allow ∧ (s.options.set q).cautionLanes = .deny then
        (withOptions (s.options.set q) s).denyForState else withOptions (s.options.set q) s) := rfl
  rw [hset, ← Options.bytes_eq_layout]
  generalize s.options.set q = o
  split_ifs with h
  · rw [denyForState_withOptions hk h.1 h.2.2]
    generalize requestsDenied s = d
    rfl
  · rfl

/-- Settles O10: the options given replace the old ones. -/
theorem setOptionsReplacesGivenOptions : Obligations.SetOptionsReplacesGivenOptions := by
  intro s m v0 v1 v2 v3 v4 v5 hs hk hm hv
  simp only [List.forall_mem_cons] at hv
  obtain ⟨h0, h1, h2, h3, h4, h5, -⟩ := hv
  rw [exec_of_read (exec_setOptions _ s) hs (parseOptions_read hm h0 h1 h2 h3 h4 h5), setOptions_eq hk]
  simp only [Options.set, getD_given]

/-! ### SET_RAIL and SET_PAIRING (R80, R159) -/

/-- Under its mark a parameter is the given one. -/
theorem marked_pick (b : Bool) (x y z : Nat) :
    (b = true ∧ (if b = true then x else y) ≠ z) ↔ (b = true ∧ x ≠ z) :=
  and_congr_right fun h => by rw [if_pos h]

theorem parseRail_read {m : Byte} (i c : Byte) (h : m.toNat < 4) : parseRail [m, i, c] = some
    { frameInterval := if m.getLsbD 0 then some i.toNat else none
      settleCount := if m.getLsbD 1 then some c.toNat else none } := by
  unfold parseRail
  dsimp only
  rw [if_pos (marksDefined_of_lt (n := 2) h), given_byte, given_byte]

theorem parsePairing_read {m : Byte} (w1 w0 c1 c0 rep v1 v0 att : Byte) (h : m.toNat < 32) :
    parsePairing [m, w1, w0, c1, c0, rep, v1, v0, att] = some
      { window := if m.getLsbD 0 then some (nat2 w1 w0) else none
        confirm := if m.getLsbD 1 then some (nat2 c1 c0) else none
        programRepeat := if m.getLsbD 2 then some rep.toNat else none
        verifyWait := if m.getLsbD 3 then some (nat2 v1 v0) else none
        attempts := if m.getLsbD 4 then some att.toNat else none } := by
  unfold parsePairing
  dsimp only
  rw [if_pos (marksDefined_of_lt (n := 5) h), given_byte, given_byte, given_byte, given_byte, given_byte]

/-- Settles O11: the settings given, clamped, replace the old ones. -/
theorem railAndPairingSettingsClamped : Obligations.RailAndPairingSettingsClamped := by
  intro s hs
  refine ⟨fun m i c hm => ?rail, fun m w1 w0 c1 c0 rep v1 v0 att hm => ?pairing⟩
  case rail =>
    rw [exec_of_read (exec_setRail _ s) hs (parseRail_read i c hm), State.setRail]
    simp only [setParam_given, clampChanges_given, clamp_byte, marked_pick, State.respond, Rail.settings]
    rw [okOrClamped_eq (p := (m.getLsbD 0 = true ∧ clamp 4 20 i.toNat ≠ i.toNat)
      ∨ (m.getLsbD 1 = true ∧ max 8 c.toNat ≠ c.toNat)) (by simp)]
    rfl
  case pairing =>
    rw [exec_of_read (exec_setPairing _ s) hs (parsePairing_read w1 w0 c1 c0 rep v1 v0 att hm), State.setPairing]
    simp only [PairingReq.apply, PairingReq.clamped, setParam_given, clampChanges_given, marked_pick, State.respond,
      PairingParams.bytes_eq_layout]
    rw [okOrClamped_eq (p := (m.getLsbD 0 = true ∧ clamp 5000 60000 (nat2 w1 w0) ≠ nat2 w1 w0)
      ∨ (m.getLsbD 1 = true ∧ clamp 100 2000 (nat2 c1 c0) ≠ nat2 c1 c0)
      ∨ (m.getLsbD 2 = true ∧ clamp 4 32 rep.toNat ≠ rep.toNat)
      ∨ (m.getLsbD 3 = true ∧ clamp 200 2000 (nat2 v1 v0) ≠ nat2 v1 v0)
      ∨ (m.getLsbD 4 = true ∧ clamp 1 3 att.toNat ≠ att.toNat)) (by simp [or_assoc])]
    rfl

/-! ### SET_CAR, SET_CURVE and SET_WATCH (R8, R16, R17) -/

theorem max_one_ne_iff (b : Byte) : max 1 b.toNat ≠ b.toNat ↔ b = 0 := by
  have : b.toNat = 0 ↔ b = 0 := ⟨fun h => BitVec.eq_of_toNat_eq h, fun h => congrArg BitVec.toNat h⟩
  rw [← this]
  omega

theorem clamp_ne_iff {lo hi : Nat} (h : lo ≤ hi) (v : Nat) : clamp lo hi v ≠ v ↔ ¬ (lo ≤ v ∧ v ≤ hi) := by
  unfold clamp
  omega

theorem parseCar_read (k : Slot) {m1 m0 lane retry : Byte} (lo hi lim acc dec fade w1 w0 up dn len : Byte)
    (hm : m1.toNat < 16) (h6 : m0.getLsbD 6 = true → lane.toNat ≤ 1) (h7 : m0.getLsbD 7 = true → retry.toNat ≤ 1) :
    parseCar [slotCode k, m1, m0, lo, hi, lim, acc, dec, fade, lane, retry, w1, w0, up, dn, len] = some
      { slot := k
        calLo := if m0.getLsbD 0 then some lo.toNat else none
        calHi := if m0.getLsbD 1 then some hi.toNat else none
        speedLimit := if m0.getLsbD 2 then some lim.toNat else none
        accelStep := if m0.getLsbD 3 then some acc.toNat else none
        decelStep := if m0.getLsbD 4 then some dec.toNat else none
        fadeStep := if m0.getLsbD 5 then some fade.toNat else none
        laneMode := if m0.getLsbD 6 then some (if lane = 0 then .hold else .latch) else none
        retryMode := if m0.getLsbD 7 then some (if retry = 0 then .keep else .drop) else none
        vtop := if m1.getLsbD 0 then some (nat2 w1 w0) else none
        accelMargin := if m1.getLsbD 1 then some up.toNat else none
        decelMargin := if m1.getLsbD 2 then some dn.toNat else none
        carLength := if m1.getLsbD 3 then some len.toNat else none } := by
  have hd : marksDefined (nat2 m1 m0) 12 = true := by
    refine marksDefined_of_lt ?_
    have := m0.isLt
    unfold nat2
    omega
  unfold parseCar
  dsimp only
  rw [if_pos hd, slotOfByte_slotCode,
    givenCode_read (nat2_testBit_low m1 m0 (by decide)) fun h => (twoCodes_read (h6 h)).2.2.2.1,
    givenCode_read (nat2_testBit_low m1 m0 (by decide)) fun h => (twoCodes_read (h7 h)).2.2.2.2]
  simp only [given_low m1 m0 (show 0 < 8 by decide), given_low m1 m0 (show 1 < 8 by decide),
    given_low m1 m0 (show 2 < 8 by decide), given_low m1 m0 (show 3 < 8 by decide),
    given_low m1 m0 (show 4 < 8 by decide), given_low m1 m0 (show 5 < 8 by decide), given_high m1 m0 0,
    given_high m1 m0 1, given_high m1 m0 2, given_high m1 m0 3]

/-- Armed after a change of lane mode (R10). -/
theorem newArmed_eq (q : CarReq) (r : Car) :
    q.newArmed r = if r.laneMode = .latch ∧ q.laneMode.getD r.laneMode = .hold then
      decide (r.link = .live ∧ r.consoleDrive = none ∧ r.inputs.lane = true) else r.armed := by
  unfold CarReq.newArmed
  rcases q with ⟨_, _, _, _, _, _, _, laneMode, _, _, _, _, _⟩
  cases hr : r.laneMode <;> rcases laneMode with _ | _ | _ <;> cases r.consoleDrive <;> simp

/-- Everything a SET_CAR changes (R16, R41). -/
theorem setCarParams_eq (s : State) (q : CarReq) :
    s.setCarParams q = { s with
      cars := s.cars.set q.slot (if q.drives then Car.recompute s.track (q.apply (s.car q.slot)) else q.apply (s.car q.slot))
      response := some { status := okOrClamped (q.clamped (s.car q.slot)), data := [] } } := by
  have hset : s.setCar q.slot (q.apply (s.car q.slot)) = s.modifyCar q.slot q.apply := rfl
  unfold State.setCarParams
  dsimp only
  rw [hset]
  split_ifs
  · rw [CarTable.recompute_modifyCar]
    rfl
  · rfl

/-- The record that a SET_CAR leaves, the levels apart (R16). -/
theorem car_state_eq {s : State} {c c' : Vector Car 8} {x x' : Status} (hc : c = c') (hx : x = x') :
    ({ s with cars := c, response := some { status := x, data := [] } } : State)
      = { s with cars := c', response := some { status := x', data := [] } } := by rw [hc, hx]

/-- Settles O12: the parameters given, clamped, replace the old ones. -/
theorem setCarAppliesGivenParameters : Obligations.SetCarAppliesGivenParameters := by
  intro s k m1 m0 lo hi lim acc dec fade lane retry w1 w0 up dn len hs hm h6 h7
  extract_lets r v givenLo givenHi newLo newHi mode r' moved
  rw [exec_of_read (exec_setCar _ s) hs (parseCar_read k lo hi lim acc dec fade w1 w0 up dn len hm h6 h7), setCarParams_eq]
  refine congrArg Outcome.next (car_state_eq (congrArg (s.cars.set k) (if_congr ?drives (congrArg _ ?kept) ?kept))
    (okOrClamped_eq ?moved))
  case drives => simp only [CarReq.drives, isSome_given, Bool.or_eq_true, or_assoc]
  case kept =>
    simp only [CarReq.apply, newArmed_eq, CarReq.newLo, CarReq.newHi, getD_given, setParam_given, clamp_byte, Nat.zero_max]
    rfl
  case moved =>
    simp only [CarReq.clamped, CarReq.newLo, CarReq.newHi, getD_given, clampChanges_given, clamp_byte, max_one_ne_iff,
      clamp_ne_iff (show 200 ≤ 9000 by decide), Bool.or_eq_true, decide_eq_true_eq, bne_iff_ne, or_assoc]
    have hlen : (max 60 len.toNat ≠ len.toNat) ↔ len.toNat < 60 := by omega
    rw [hlen]
    rfl

theorem parseCurve_race (k : Slot) (p0 p1 p2 p3 p4 p5 p6 p7 p8 : Byte) :
    parseCurve [slotCode k, 0, p0, p1, p2, p3, p4, p5, p6, p7, p8] = some
      ⟨k, .race, #v[p0.toNat, p1.toNat, p2.toNat, p3.toNat, p4.toNat, p5.toNat, p6.toNat, p7.toNat, p8.toNat]⟩ := by
  unfold parseCurve
  dsimp only
  rw [slotOfByte_slotCode]
  rfl

theorem parseCurve_caution (k : Slot) (p0 p1 p2 p3 p4 p5 p6 p7 p8 : Byte) :
    parseCurve [slotCode k, 1, p0, p1, p2, p3, p4, p5, p6, p7, p8] = some
      ⟨k, .caution, #v[p0.toNat, p1.toNat, p2.toNat, p3.toNat, p4.toNat, p5.toNat, p6.toNat, p7.toNat, p8.toNat]⟩ := by
  unfold parseCurve
  dsimp only
  rw [slotOfByte_slotCode]
  rfl

theorem parseWatch_read (k : Slot) (t1 t0 : Byte) : parseWatch [slotCode k, t1, t0] = some ⟨k, nat2 t1 t0⟩ := by
  unfold parseWatch
  dsimp only
  rw [slotOfByte_slotCode]
  rfl

/-- The timeout is set at once where no timer runs and the link is not LOST (R8). -/
theorem car_setWatchTimeout (ms : Nat) (r : Car) :
    Car.setWatchTimeout ms r = if r.link = .none ∨ r.link = .silent then
      { r with watchTimeout := ms, pendingWatch := none } else { r with pendingWatch := some ms } := by
  cases h : r.link <;> simp [Car.setWatchTimeout, h]

/-- Settles O13: a curve replaced and the car recomputed; a timeout set or left pending. -/
theorem curveAndWatchSettings : Obligations.CurveAndWatchSettings := by
  intro s k hs
  refine ⟨fun p0 p1 p2 p3 p4 p5 p6 p7 p8 => ⟨?race, ?caution⟩, fun t1 t0 => ?watch⟩
  case race =>
    rw [exec_of_read (exec_setCurve _ s) hs (parseCurve_race k p0 p1 p2 p3 p4 p5 p6 p7 p8), State.setCurve,
      CarTable.recompute_modifyCar]
    rfl
  case caution =>
    rw [exec_of_read (exec_setCurve _ s) hs (parseCurve_caution k p0 p1 p2 p3 p4 p5 p6 p7 p8), State.setCurve,
      CarTable.recompute_modifyCar]
    rfl
  case watch =>
    rw [exec_of_read (exec_setWatch _ s) hs (parseWatch_read k t1 t0)]
    have hclamp : okOrClamped (clampChanges 20 2000 (some (nat2 t1 t0)))
        = if clamp 20 2000 (nat2 t1 t0) = nat2 t1 t0 then .ok else .okClamped :=
      (okOrClamped_eq (p := clamp 20 2000 (nat2 t1 t0) ≠ nat2 t1 t0) bne_iff_ne).trans (ite_not ..)
    rw [State.setWatchTimeout, hclamp, State.modifyCar, car_setWatchTimeout]
    rfl

/-! ### SET_SECTION (R109) -/

/-- A link whose address is 0 or that of a node. -/
theorem linkOfBytes_read {b : Byte} (d1 d0 : Byte) (h : b.toNat ≤ 15) :
    linkOfBytes b d1 d0 = some ((addrOfByte b).map fun n => { node := n, distance := nat2 d1 d0 }) := by
  unfold linkOfBytes
  by_cases h0 : b = 0
  · rw [if_pos h0, h0]
    rfl
  · have hne : b.toNat ≠ 0 := fun e => h0 (BitVec.eq_of_toNat_eq e)
    have hb : ∃ a, addrOfByte b = some a := ⟨_, dif_pos (by omega)⟩
    obtain ⟨a, ha⟩ := hb
    rw [if_neg h0, ha]
    rfl

theorem setLink_given (b : Bool) (o : Option Addr) (d : Nat) (old : Option Link) :
    setLink (if b = true then some (o.map fun n => { node := n, distance := d }) else none) old
      = if b = true then o.map fun n => { node := n, distance := min 30000 d } else old := by
  cases b with
  | false => rfl
  | true => cases o <;> simp [setLink, Link.clamped, clamp]

/-- The distance of a link given as absent is not read. -/
theorem linkChanges_given (b : Bool) (c : Byte) (d : Nat) (hc : b = true → c.toNat ≤ 15) :
    linkChanges (if b = true then some ((addrOfByte c).map fun n => { node := n, distance := d }) else none) = true
      ↔ c ≠ 0 ∧ b = true ∧ ¬ (0 ≤ d ∧ d ≤ 30000) := by
  cases b with
  | false => simp [linkChanges]
  | true =>
    by_cases h0 : c = 0
    · have hnone : addrOfByte c = none := by rw [h0]; rfl
      rw [hnone]
      exact iff_of_false (fun h => nomatch h) fun h => h.1 h0
    · have hne : c.toNat ≠ 0 := fun e => h0 (BitVec.eq_of_toNat_eq e)
      have hb : ∃ a, addrOfByte c = some a := ⟨_, dif_pos ⟨by omega, hc rfl⟩⟩
      obtain ⟨a, ha⟩ := hb
      rw [ha]
      refine Iff.trans ?_ (and_iff_right h0).symm
      refine Iff.trans ?_ (and_iff_right rfl).symm
      exact bne_iff_ne.trans (clamp_ne_iff (by decide) d)

theorem parseSection_read (a : Addr) {m1 m0 la lb : Byte}
    (ap1 ap0 cr1 cr0 st1 st0 lad1 lad0 lbd1 lbd0 gd ld pu du co1 co0 ex1 ex0 an : Byte)
    (hm : m1.toNat < 16) (h3 : m0.getLsbD 3 = true → la.toNat ≤ 15) (h4 : m0.getLsbD 4 = true → lb.toNat ≤ 15) :
    parseSection [addrCode a, m1, m0, ap1, ap0, cr1, cr0, st1, st0, la, lad1, lad0, lb, lbd1, lbd0, gd, ld, pu, du, co1,
        co0, ex1, ex0, an] = some
      { addr := a
        approach := if m0.getLsbD 0 then some (nat2 ap1 ap0) else none
        crossing := if m0.getLsbD 1 then some (nat2 cr1 cr0) else none
        straight := if m0.getLsbD 2 then some (nat2 st1 st0) else none
        linkA := if m0.getLsbD 3 then
          some ((addrOfByte la).map fun n => { node := n, distance := nat2 lad1 lad0 }) else none
        linkB := if m0.getLsbD 4 then
          some ((addrOfByte lb).map fun n => { node := n, distance := nat2 lbd1 lbd0 }) else none
        guard := if m0.getLsbD 5 then some gd.toNat else none
        lead := if m0.getLsbD 6 then some ld.toNat else none
        pullIn := if m0.getLsbD 7 then some pu.toNat else none
        holdDuty := if m1.getLsbD 0 then some du.toNat else none
        coilLimit := if m1.getLsbD 1 then some (nat2 co1 co0) else none
        exitSlack := if m1.getLsbD 2 then some (nat2 ex1 ex0) else none
        anonClear := if m1.getLsbD 3 then some an.toNat else none } := by
  have hd : marksDefined (nat2 m1 m0) 12 = true := by
    refine marksDefined_of_lt ?_
    have := m0.isLt
    unfold nat2
    omega
  unfold parseSection
  dsimp only
  rw [if_pos hd, addrOfByte_addrCode,
    givenCode_read (nat2_testBit_low m1 m0 (by decide)) fun h => linkOfBytes_read lad1 lad0 (h3 h),
    givenCode_read (nat2_testBit_low m1 m0 (by decide)) fun h => linkOfBytes_read lbd1 lbd0 (h4 h)]
  simp only [given_low m1 m0 (show 0 < 8 by decide), given_low m1 m0 (show 1 < 8 by decide),
    given_low m1 m0 (show 2 < 8 by decide), given_low m1 m0 (show 5 < 8 by decide),
    given_low m1 m0 (show 6 < 8 by decide), given_low m1 m0 (show 7 < 8 by decide), given_high m1 m0 0,
    given_high m1 m0 1, given_high m1 m0 2, given_high m1 m0 3]

/-- Everything a SET_SECTION changes (R109). -/
theorem setSectionMap_eq {s : State} {q : SectionReq} {sec : Section} (h : s.sectionAt q.addr = some sec) :
    s.setSectionMap q = { s with
      sections := s.sections.set q.addr (some { sec with map := q.apply sec.map })
      response := some { status := okOrClamped q.clamped, data := Layout.map Layout.linkInPlace (q.apply sec.map) } } := by
  unfold State.setSectionMap
  rw [h, ← SectionMap.bytes_eq_layout _ _ linkBytes_eq_layout]
  rfl

theorem section_state_eq {s : State} {a : Addr} {sec : Section} {m m' : SectionMap} {x x' : Status} (hm : m = m')
    (hx : x = x') :
    ({ s with
        sections := s.sections.set a (some { sec with map := m })
        response := some { status := x, data := Layout.map Layout.linkInPlace m } } : State)
      = { s with
        sections := s.sections.set a (some { sec with map := m' })
        response := some { status := x', data := Layout.map Layout.linkInPlace m' } } := by rw [hm, hx]

/-- Settles O19: the map parameters given, clamped, replace the old ones. -/
theorem setSectionReplacesMap : Obligations.SetSectionReplacesMap := by
  intro s a m1 m0 ap1 ap0 cr1 cr0 st1 st0 la lad1 lad0 lb lbd1 lbd0 gd ld pu du co1 co0 ex1 ex0 an hs hm h3 h4 i
  have hread := parseSection_read a ap1 ap0 cr1 cr0 st1 st0 lad1 lad0 lbd1 lbd0 gd ld pu du co1 co0 ex1 ex0 an hm h3 h4
  refine ⟨fun hsec => ?absent, fun sec hsec => ?replaced⟩
  case absent =>
    rw [exec_of_read (exec_setSection _ s) hs hread, State.setSectionMap]
    dsimp only
    rw [hsec]
    rfl
  case replaced =>
    extract_lets pick moves ap cr st da db co ex map moved
    rw [exec_of_read (exec_setSection _ s) hs hread, setSectionMap_eq hsec]
    refine congrArg Outcome.next (section_state_eq ?map (okOrClamped_eq ?moved))
    case map =>
      simp only [SectionReq.apply, setParam_given, setLink_given]
      rfl
    case moved =>
      have hguard : ¬ (clamp 0 255 gd.toNat ≠ gd.toNat) := by
        rw [clamp_byte]
        omega
      simp only [SectionReq.clamped, clampChanges_given, linkChanges_given _ _ _ h3, linkChanges_given _ _ _ h4, hguard,
        clamp_ne_iff (show 0 ≤ 2000 by decide), clamp_ne_iff (show 100 ≤ 1500 by decide),
        clamp_ne_iff (show 5 ≤ 200 by decide), clamp_ne_iff (show 5 ≤ 100 by decide), clamp_ne_iff (show 10 ≤ 100 by decide),
        clamp_ne_iff (show 100 ≤ 2000 by decide), clamp_ne_iff (show 50 ≤ 2000 by decide),
        clamp_ne_iff (show 1 ≤ 255 by decide), Bool.or_eq_true, decide_eq_true_eq, or_assoc, and_false, false_or]
      rfl

end Sys2Proof.Proofs.Settings
end

section
/-! PROOFS. Changes of binding and store writes (R3, R15, R18, R167, R173 to R178). -/

namespace Sys2Proof.Proofs.Bindings

open Sys2Proof Sys2Proof.Machine Host Arguments Kept

/-! ### One slot -/

theorem slot_set {α : Type} (v : Vector α 8) (k j : Slot) (x : α) : (v.set k x)[j] = if j = k then x else v[j] := by
  by_cases h : j = k
  · subst h
    simp
  · simp [Fin.val_ne_of_ne (Ne.symm h), h]

theorem cars_car {s : State} {v : Vector Car 8} {k : Slot} {r : Car} (h : s.cars = v.set k r) (j : Slot) :
    s.car j = if j = k then r else v[j] := by
  rw [State.car, h, slot_set]

/-- The record after a change of binding and of its store status (R3, R15). -/
theorem recompute_rebind (t : TrackState) (b : Option Hid) (r : Car) (st : StoreStatus) :
    { Car.recompute t (Car.rebind b r) with storeStatus := st }
      = Car.recompute t { unboundRecord r with binding := b, link := quietLink b, storeStatus := st } := by
  cases h : r.pendingWatch <;> simp [Car.rebind, Car.applyPendingWatch, unboundRecord, h] <;> rfl

theorem pending_record (t : TrackState) (b : Option Hid) (r : Car) :
    { Car.recompute t (Car.rebind b r) with storeStatus := .pending }
      = Car.recompute t { unboundRecord r with binding := b, link := quietLink b } := recompute_rebind t b r .pending

/-- Slot k's binding changed and its write requested, before a write begins. -/
def rebound (s : State) (k : Slot) (b : Option Hid) : State :=
  { s with
    cars := s.cars.set k (Car.recompute s.track { unboundRecord (s.car k) with binding := b, link := quietLink b })
    watch := s.watch.set k none
    unbound := leaveUnbound s.unbound b
    store := { s.store with dirty := s.store.dirty.set k true } }

theorem requestWrite_changeBinding (s : State) (k : Slot) (b : Option Hid) :
    (s.changeBinding k b).requestWrite k = (rebound s k b).beginWrite := by
  unfold State.requestWrite
  rw [changeBinding_eq]
  refine congrArg State.beginWrite ?_
  simp only [State.setStoreStatus, State.modifyCar, State.setCar, State.car, rebound, Vector.set_set,
    ← pending_record, Fin.getElem_fin, Vector.getElem_set_self]

theorem rebound_car (s : State) (k j : Slot) (b : Option Hid) : (rebound s k b).car j = if j = k then
    Car.recompute s.track { unboundRecord (s.car k) with binding := b, link := quietLink b } else s.car j :=
  slot_set s.cars k j _

theorem rebound_watchOf (s : State) (k j : Slot) (b : Option Hid) :
    (rebound s k b).watchOf j = if j = k then none else s.watchOf j := slot_set s.watch k j none

theorem beginWrite_frame (s : State) : s.beginWrite = { s with store := s.beginWrite.store } := (beginWrite_store s).1

theorem beginWrite_car (s : State) (k : Slot) : s.beginWrite.car k = s.car k := by rw [beginWrite_frame]; rfl

theorem beginWrite_watchOf (s : State) (k : Slot) : s.beginWrite.watchOf k = s.watchOf k := by rw [beginWrite_frame]; rfl

/-- The car, the timers and the store after a change of binding with its write requested. -/
theorem reboundWrite_car (s : State) (k j : Slot) (b : Option Hid) : (rebound s k b).beginWrite.car j = if j = k then
    Car.recompute s.track { unboundRecord (s.car k) with binding := b, link := quietLink b } else s.car j := by
  rw [beginWrite_car, rebound_car]

theorem reboundWrite_watchOf (s : State) (k j : Slot) (b : Option Hid) :
    (rebound s k b).beginWrite.watchOf j = if j = k then none else s.watchOf j := by
  rw [beginWrite_watchOf, rebound_watchOf]

theorem reboundWrite_waiting {s : State} (k : Slot) (b : Option Hid) (hf : s.store.inFlight ≠ none) :
    (rebound s k b).beginWrite.store = { s.store with dirty := s.store.dirty.set k true } := by
  have hf' : (rebound s k b).store.inFlight ≠ none := hf
  rw [beginWrite_of_inFlight hf']
  rfl

theorem reboundWrite_begun {s : State} {k j : Slot} (b : Option Hid) (hf : s.store.inFlight = none)
    (hj : LowestDirty (s.store.dirty.set k true) j) :
    (rebound s k b).beginWrite.store = { s.store with
      dirty := (s.store.dirty.set k true).set j false
      inFlight := some { slot := j, hid := ((rebound s k b).beginWrite.car j).binding } } := by
  have hf' : (rebound s k b).store.inFlight = none := hf
  have hj' : LowestDirty (rebound s k b).store.dirty j := hj
  rw [beginWrite_car, beginWrite_of_lowest hf' hj']
  rfl

/-- Settles O15: the change of binding, and the write of the lowest dirty slot. -/
theorem unbindErasesBinding : Obligations.UnbindErasesBinding := by
  intro s k hs
  have hexec : exec (.unbind [slotCode k]) s = .next ((rebound s k none).beginWrite.respond .ok []) := by
    rw [exec_of_read (exec_unbind _ s) hs (CarTable.parseSlot_slotCode k), State.unbind, requestWrite_changeBinding]
  refine ⟨_, hexec, (reboundWrite_car s k k none).trans (if_pos rfl), (reboundWrite_watchOf s k k none).trans (if_pos rfl),
    fun j hj => ⟨(reboundWrite_car s k j none).trans (if_neg hj), (reboundWrite_watchOf s k j none).trans (if_neg hj)⟩,
    fun hf => reboundWrite_waiting k none hf, fun hf j hj => reboundWrite_begun none hf hj, ?frame⟩
  rw [beginWrite_frame]
  rfl

/-! ### The confirm and verify expiries (R163, R167) -/

theorem exec_verifyExpiry (s : State) : exec .verifyExpiry s = s.take fun s =>
    if s.pairing.state = .verify ∧ expired s.now s.pairing.verifyExpiry = true then s.failedAttempt else s := rfl

theorem exec_confirmExpiry (s : State) : exec .confirmExpiry s = s.take fun s =>
    if s.pairing.state = .confirm ∧ expired s.now s.pairing.confirmExpiry = true then s.commit else s := rfl

theorem leaveUnbound_some (l : List UnboundEntry) (h : Hid) :
    leaveUnbound l (some h) = l.filter fun e => decide (e.hid ≠ h) :=
  List.filter_congr fun e _ => by rw [Bool.eq_iff_iff, bne_iff_ne, decide_eq_true_eq]

theorem noticesAfter_bound (s : State) : noticesAfter s .bound = s.notices := by
  unfold noticesAfter
  cases s.pairing.candidate <;> simp [PairingOutcome.refusesCandidate]

/-- The state that a commit leaves (R167). -/
theorem commit_eq {s : State} {k : Slot} {h : Hid} (hp : s.pairing.state = .confirm) (hk : s.pairing.slot = some k)
    (hh : s.pairing.candidate = some h) :
    s.commit = { (rebound s k (some h)).beginWrite with
      notices := if s.notices.length < 4 then s.notices ++ [{ hid := h, kind := .bound }] else s.notices
      pairing := Pairing.idle
      result := { slot := some k, hid := some h, outcome := .bound, attempts := s.pairing.attempt
                  ignored := s.pairing.ignored, store := .pending }
      flags := { s.flags with pairing := true } } := by
  have hcommit : s.commit = ((rebound s k (some h)).beginWrite.endPairing .bound).notify h .bound := by
    unfold State.commit
    rw [hk, hh, ← requestWrite_changeBinding]
  have hpairing : (rebound s k (some h)).beginWrite.pairing = s.pairing := by rw [beginWrite_frame]; rfl
  have hnotices : (rebound s k (some h)).beginWrite.notices = s.notices := by rw [beginWrite_frame]; rfl
  have hflags : (rebound s k (some h)).beginWrite.flags = s.flags := by rw [beginWrite_frame]; rfl
  rw [hcommit, endPairing_eq, notify_eq, noticesAfter_bound, resultOf]
  generalize (rebound s k (some h)).beginWrite = u at hpairing hnotices hflags ⊢
  rw [hpairing, hnotices, hflags, hp, hk, hh]
  rfl

/-- A failed attempt below the limit starts another burst in HALT (R163). -/
theorem failedAttempt_again {s : State} {k : Slot} (hk : s.pairing.slot = some k) (ht : s.track = .halt)
    (ha : s.pairing.attempt < s.params.attempts) : s.failedAttempt = { s with
      pairing := { s.pairing with state := .programming, slot := some k, attempt := s.pairing.attempt + 1, verifyExpiry := none }
      rail := { s.rail with
        burst := .active, burstSlot := some k, burstRepeat := some s.params.programRepeat, programSent := 0
        padfeed := none } } := by
  unfold State.failedAttempt
  rw [hk]
  dsimp only
  rw [if_pos ha, State.program, State.requestBurst, if_pos ht]
  rfl

/-- A failed attempt at the limit ends the pairing (R163). -/
theorem failedAttempt_last {s : State} (ha : s.params.attempts ≤ s.pairing.attempt) :
    s.failedAttempt = pairingEnded s .programFailed := by
  unfold State.failedAttempt
  rw [endPairing_ended s .programFailed (by decide)]
  split
  · rw [if_neg (Nat.not_lt.mpr ha)]
  · rfl

/-- Settles O23: an expiry of its state is the failed attempt or the commit. -/
theorem verifyAndConfirmExpiries : Obligations.VerifyAndConfirmExpiries := by
  intro s hs
  simp only [exec_verifyExpiry, exec_confirmExpiry, take_of_running hs]
  have hskip {p : PairingState} {e : Option TrackTime} {t : State}
      (h : s.pairing.state ≠ p ∨ expired s.now e = false) :
      (if s.pairing.state = p ∧ expired s.now e = true then t else s) = s :=
    if_neg fun h' => h.elim (absurd h'.1) fun h => absurd (h.symm.trans h'.2) (by decide)
  refine ⟨fun h => congrArg _ (hskip h), fun hp he ht k hk ha => ?again, fun hp he ha => ?last, fun h => congrArg _ (hskip h),
    fun hp he k h hk hh => ?commits⟩
  case again =>
    rw [if_pos ⟨hp, he⟩, failedAttempt_again hk ht ha, ← hk]
  case last =>
    have hne : s.pairing.state ≠ .programming := by rw [hp]; decide
    rw [if_pos ⟨hp, he⟩, failedAttempt_last ha, pairingEnded, if_neg hne]
    cases s.pairing.candidate <;> rfl
  case commits =>
    rw [if_pos ⟨hp, he⟩, commit_eq hp hk hh]
    refine ⟨_, rfl, (reboundWrite_car s k k (some h)).trans (if_pos rfl),
      (reboundWrite_watchOf s k k (some h)).trans (if_pos rfl),
      fun j hj => ⟨(reboundWrite_car s k j (some h)).trans (if_neg hj),
        (reboundWrite_watchOf s k j (some h)).trans (if_neg hj)⟩,
      ?list, rfl, rfl, rfl, rfl,
      fun hf => reboundWrite_waiting k (some h) hf, fun hf j hj => reboundWrite_begun (some h) hf hj, ?frame⟩
    case list =>
      rw [beginWrite_frame]
      exact leaveUnbound_some s.unbound h
    case frame =>
      rw [beginWrite_frame]
      rfl

/-! ### The completion of a store write (R176) -/

theorem exec_storeWriteCompletion (ok : Bool) (s : State) : exec (.storeWriteCompletion ok) s = s.take fun s =>
    match s.store.inFlight with
    | some w => s.completeWrite w ok
    | none => s := by
  unfold exec
  rfl

/-- The write w completed, before the next one begins. -/
def completed (s : State) (w : StoreWrite) (ok : Bool) : State :=
  { s with
    cars := s.cars.set w.slot { s.car w.slot with storeStatus := completionStatus ok s.store.dirty[w.slot] }
    store := s.store.complete w ok
    result := s.result.complete w.slot ok s.store.dirty[w.slot]
    flags := { s.flags with fault := s.flags.fault || !ok } }

theorem raiseIf_fault (s : State) (b : Bool) :
    s.raiseIf b .fault = { s with flags := { s.flags with fault := s.flags.fault || b } } := by
  cases b with
  | false => rw [Bool.or_false]; rfl
  | true => rw [Bool.or_true]; rfl

theorem completeWrite_eq (s : State) (w : StoreWrite) (ok : Bool) : s.completeWrite w ok = (completed s w ok).beginWrite :=
  congrArg State.beginWrite (raiseIf_fault (State.setStoreStatus
    { s with store := s.store.complete w ok, result := s.result.complete w.slot ok s.store.dirty[w.slot] } w.slot
    (completionStatus ok s.store.dirty[w.slot])) (!ok))

/-- The begin of a write moves a slot from the dirty set into flight, and nothing else. -/
theorem beginWrite_keeps (s : State) : s.beginWrite.store.records = s.store.records
    ∧ s.beginWrite.store.bad = s.store.bad ∧ s.beginWrite.store.load = s.store.load := by
  unfold State.beginWrite
  split <;> exact ⟨rfl, rfl, rfl⟩

/-- What a completion makes of the result: it follows where it waits for the slot (R170). -/
theorem result_complete_of_waiting {r : PairingResult} {j : Slot} {ok dirty : Bool} (hs : r.slot = some j)
    (hp : r.store = .pending) : r.complete j ok dirty
      = { r with store := if ok then (if dirty then .pending else .saved) else .unsaved } := by
  unfold PairingResult.complete
  rw [if_pos ⟨hs, hp⟩]
  cases ok <;> cases dirty <;> simp [← hp]

theorem result_complete_of_other {r : PairingResult} {j : Slot} {ok dirty : Bool}
    (h : r.slot ≠ some j ∨ r.store ≠ .pending) : r.complete j ok dirty = r :=
  if_neg fun h' => h.elim (absurd h'.1) (absurd h'.2)

/-- Settles O47: the completion, and the next dirty slot's write begun. -/
theorem storeWriteCompletionSetsStatus : Obligations.StoreWriteCompletionSetsStatus := by
  intro s ok hs
  simp only [exec_storeWriteCompletion, take_of_running hs]
  refine ⟨fun h => by rw [h], fun w hw => ?_⟩
  rw [hw]
  dsimp only
  rw [completeWrite_eq]
  have hcar (j : Slot) : (completed s w ok).beginWrite.car j
      = if j = w.slot then { s.car w.slot with storeStatus := completionStatus ok s.store.dirty[w.slot] } else s.car j := by
    rw [beginWrite_car]
    exact slot_set s.cars w.slot j _
  have hframe := beginWrite_frame (completed s w ok)
  have hidle : (completed s w ok).store.inFlight = none := rfl
  obtain ⟨hrecords, hbad, hload⟩ := beginWrite_keeps (completed s w ok)
  have hresult : (completed s w ok).beginWrite.result = s.result.complete w.slot ok s.store.dirty[w.slot] := by
    rw [hframe]
    rfl
  refine ⟨_, rfl, (hcar w.slot).trans (if_pos rfl), fun j hj => (hcar j).trans (if_neg hj), hrecords, hbad, hload, ?flags,
    fun h1 h2 => hresult.trans (result_complete_of_waiting h1 h2), fun h => hresult.trans (result_complete_of_other h),
    fun h => ?clean, fun j hj => ?begun, ?frame⟩
  case flags =>
    rw [hframe]
    rfl
  case clean =>
    have hclean : ∀ k : Slot, (completed s w ok).store.dirty[k] = false := h
    rw [beginWrite_of_clean hclean]
    exact ⟨rfl, rfl⟩
  case begun =>
    have hlow : LowestDirty (completed s w ok).store.dirty j := hj
    have hbinding : ((completed s w ok).car j).binding = (s.car j).binding := by
      rw [← beginWrite_car, hcar]
      split_ifs with h
      · rw [h]
      · rfl
    rw [beginWrite_of_lowest hidle hlow, hbinding]
    exact ⟨rfl, rfl⟩
  case frame =>
    rw [hframe]
    rfl

/-! ### Every slot in turn -/

theorem mem_allSlots (k : Slot) : k ∈ allSlots := by
  unfold allSlots
  fin_cases k <;> decide

theorem allSlots_sorted : allSlots.Pairwise (· < ·) := by decide

/-- What a run over slots, each once, makes of one of them: the work of its own turn. -/
theorem foldl_slot {α β : Type} {get : State → Slot → β} {op : State → α → State} {key : α → Slot} {g : α → β → β}
    (h : ∀ s x j, get (op s x) j = if j = key x then g x (get s j) else get s j) :
    ∀ (l : List α) (s : State), (l.map key).Nodup → ∀ j,
      (∀ x ∈ l, key x = j → get (l.foldl op s) j = g x (get s j)) ∧ (j ∉ l.map key → get (l.foldl op s) j = get s j)
  | [], s, _, j => ⟨fun x hx => absurd hx List.not_mem_nil, fun _ => rfl⟩
  | x :: l, s, hn, j => by
    obtain ⟨hx, hn⟩ := List.nodup_cons.mp hn
    obtain ⟨hin, hout⟩ := foldl_slot h l (op s x) hn j
    rw [List.foldl_cons]
    refine ⟨fun y hy hj => ?_, fun hj => ?_⟩
    · rcases List.mem_cons.mp hy with rfl | hy
      · rw [hout (hj ▸ hx), h, if_pos hj.symm]
      · rw [hin y hy hj, h, if_neg]
        exact fun e => hx (e ▸ hj ▸ List.mem_map_of_mem hy)
    · rw [List.map_cons, List.mem_cons, not_or] at hj
      rw [hout hj.2, h, if_neg hj.1]

/-- A run over all slots, each by what it is given. -/
theorem foldl_allSlots {α β : Type} {get : State → Slot → β} {op : State → α → State} {key : α → Slot} {g : α → β → β}
    {f : Slot → α} (hf : ∀ k, key (f k) = k)
    (h : ∀ s x j, get (op s x) j = if j = key x then g x (get s j) else get s j) (s : State) (k : Slot) :
    get ((allSlots.map f).foldl op s) k = g (f k) (get s k) := by
  refine (foldl_slot h (allSlots.map f) s ?_ k).1 (f k) (List.mem_map_of_mem (mem_allSlots k)) (hf k)
  rw [List.map_map, show key ∘ f = id from funext hf, List.map_id]
  decide

/-- A car record with the track state that its recomputation reads. -/
def driven (s : State) (k : Slot) : TrackState × Car := (s.track, s.car k)

theorem changeBinding_driven (s : State) (k j : Slot) (b : Option Hid) : driven (s.changeBinding k b) j
    = if j = k then ((driven s j).1, Car.recompute (driven s j).1 (Car.rebind b (driven s j).2)) else driven s j := by
  have hcar : (s.changeBinding k b).car j = if j = k then Car.recompute s.track (Car.rebind b (s.car k)) else s.car j := by
    rw [changeBinding_eq]
    exact slot_set s.cars k j _
  have htrack : (s.changeBinding k b).track = s.track := by rw [changeBinding_eq]
  rw [driven, hcar, htrack]
  split_ifs with h
  · rw [h]
    rfl
  · rfl

theorem changeBinding_watchOf (s : State) (k j : Slot) (b : Option Hid) :
    (s.changeBinding k b).watchOf j = if j = k then none else s.watchOf j := by
  rw [changeBinding_eq]
  exact slot_set s.watch k j none

/-! ### WIPE_BINDINGS (R178) -/

/-- Every slot unbound. -/
def unboundAll (s : State) : State := (allSlots.map id).foldl (fun s k => s.changeBinding k none) s

/-- A store write of every slot requested. -/
def writtenAll (s : State) : State := (allSlots.map id).foldl State.requestWrite s

theorem wipe_eq (s : State) : s.wipe = writtenAll (unboundAll (pairingAborted s)) := by
  have hp : (if s.pairing.state = .idle then s else s.endPairing .aborted) = pairingAborted s := by
    unfold pairingAborted
    rw [endPairing_ended s .aborted (by decide)]
  unfold State.wipe writtenAll unboundAll
  rw [hp, List.map_id]

theorem unboundAll_frame (s : State) : unboundAll s = { s with cars := (unboundAll s).cars, watch := (unboundAll s).watch } :=
  List.foldlRecOn (motive := fun u : State => u = { s with cars := u.cars, watch := u.watch }) _ _ rfl fun u hu k _ => by
    rw [changeBinding_eq, hu]
    rfl

theorem requestWrite_frame (s : State) (k : Slot) :
    s.requestWrite k = { s with cars := (s.requestWrite k).cars, store := (s.requestWrite k).store } := by
  unfold State.requestWrite
  rw [beginWrite_frame]
  rfl

theorem writtenAll_frame (s : State) :
    writtenAll s = { s with cars := (writtenAll s).cars, store := (writtenAll s).store } :=
  List.foldlRecOn (motive := fun u : State => u = { s with cars := u.cars, store := u.store }) _ _ rfl fun u hu k _ => by
    rw [requestWrite_frame, hu]

theorem requestWrite_car (s : State) (k j : Slot) :
    (s.requestWrite k).car j = if j = k then { s.car j with storeStatus := .pending } else s.car j := by
  unfold State.requestWrite
  rw [beginWrite_car]
  refine (slot_set s.cars k j _).trans ?_
  split_ifs with h
  · rw [h]
  · rfl

theorem unboundAll_car (s : State) (k : Slot) :
    (unboundAll s).car k = Car.recompute s.track (Car.rebind none (s.car k)) := by
  have h : driven (unboundAll s) k = _ := foldl_allSlots (get := driven) (op := fun s k => s.changeBinding k none) (key := id) (f := id)
    (g := fun _ d => (d.1, Car.recompute d.1 (Car.rebind none d.2))) (fun _ => rfl)
    (fun s k j => changeBinding_driven s k j none) s k
  show (driven (unboundAll s) k).2 = _
  rw [h]
  rfl

theorem wiped_car (s : State) (k : Slot) : (writtenAll (unboundAll s)).car k = Car.recompute s.track (unboundRecord (s.car k)) := by
  have hw : (writtenAll (unboundAll s)).car k = { (unboundAll s).car k with storeStatus := .pending } :=
    foldl_allSlots (get := State.car) (op := State.requestWrite) (key := id) (f := id)
      (g := fun _ r => { r with storeStatus := .pending }) (fun _ => rfl) requestWrite_car _ k
  rw [hw, unboundAll_car, pending_record]
  rfl

theorem writtenAll_watchOf (s : State) (k : Slot) : (writtenAll s).watchOf k = s.watchOf k := by
  unfold State.watchOf
  rw [writtenAll_frame]

theorem wiped_watchOf (s : State) (k : Slot) : (writtenAll (unboundAll s)).watchOf k = none := by
  rw [writtenAll_watchOf]
  exact foldl_allSlots (get := State.watchOf) (op := fun s k => s.changeBinding k none) (key := id) (f := id)
    (g := fun _ _ => none) (fun _ => rfl)
    (fun s k j => changeBinding_watchOf s k j none) s k

theorem requestWrite_waiting {s : State} (k : Slot) (h : s.store.inFlight ≠ none) :
    (s.requestWrite k).store = { s.store with dirty := s.store.dirty.set k true } := by
  unfold State.requestWrite
  rw [beginWrite_of_inFlight]
  · rfl
  · exact h

/-- Slot k's flag set. -/
def marked (dirty : Vector Bool 8) (k : Slot) : Vector Bool 8 := dirty.set k true

/-- Requests behind a write in flight set flags alone (R173, R175). -/
theorem foldl_requestWrite_waiting : ∀ (l : List Slot) (s : State), s.store.inFlight ≠ none →
    (l.foldl State.requestWrite s).store
      = { s.store with dirty := l.foldl marked s.store.dirty }
  | [], s, _ => rfl
  | k :: l, s, h => by
    have hk := requestWrite_waiting k h
    have h' : (s.requestWrite k).store.inFlight ≠ none := by rw [hk]; exact h
    rw [List.foldl_cons, foldl_requestWrite_waiting l _ h', hk]
    rfl

theorem writtenAll_waiting {s : State} (h : s.store.inFlight ≠ none) :
    (writtenAll s).store = { s.store with dirty := Vector.replicate 8 true } := by
  unfold writtenAll
  rw [List.map_id, foldl_requestWrite_waiting _ s h]
  have hd : (allSlots.foldl marked s.store.dirty) = Vector.replicate 8 true := by
    ext i hi
    unfold allSlots
    interval_cases i <;> simp [marked]
  rw [hd]

/-- With no write in flight the write of slot 1 begins at its request, and the others wait behind it. -/
theorem writtenAll_idle {s : State} (h : s.store.inFlight = none) :
    (writtenAll s).store = { s.store with
      dirty := (Vector.replicate 8 true).set 0 false, inFlight := some { slot := 0, hid := (s.car 0).binding } } := by
  have hlow : LowestDirty (s.store.dirty.set (0 : Slot) true) 0 := ⟨by simp, fun i hi => absurd hi (by simp)⟩
  have hfirst : (s.requestWrite 0).store = { s.store with
      dirty := (s.store.dirty.set (0 : Slot) true).set (0 : Slot) false
      inFlight := some { slot := 0, hid := (s.car 0).binding } } := by
    have hbinding : ((s.setStoreStatus 0 .pending).car 0).binding = (s.car 0).binding := by
      simp [State.setStoreStatus, State.modifyCar, State.setCar, State.car]
    rw [← hbinding]
    unfold State.requestWrite
    exact congrArg State.store (beginWrite_of_lowest (s := { s.setStoreStatus 0 .pending with
      store := { s.store with dirty := s.store.dirty.set (0 : Slot) true } }) h hlow)
  have hflight : (s.requestWrite 0).store.inFlight ≠ none := by rw [hfirst]; exact Option.some_ne_none _
  have hrun : writtenAll s = [1, 2, 3, 4, 5, 6, 7].foldl State.requestWrite (s.requestWrite 0) := rfl
  rw [hrun, foldl_requestWrite_waiting _ _ hflight, hfirst]
  have hd : (([1, 2, 3, 4, 5, 6, 7] : List Slot).foldl marked
      ((s.store.dirty.set (0 : Slot) true).set (0 : Slot) false) ) = (Vector.replicate 8 true).set 0 false := by
    ext i hi
    interval_cases i <;> simp [marked]
  exact congrArg (fun d => ({ s.store with
    dirty := d, inFlight := some { slot := 0, hid := (s.car 0).binding } } : Store)) hd

theorem pairingAborted_keeps (s : State) : (pairingAborted s).cars = s.cars ∧ (pairingAborted s).watch = s.watch
    ∧ (pairingAborted s).store = s.store ∧ (pairingAborted s).track = s.track := by
  unfold pairingAborted
  split_ifs <;> exact ⟨rfl, rfl, rfl, rfl⟩

theorem exec_wipeBindings {s : State} (hs : Served s) : exec (.wipeBindings []) s = .next s.wipeBindings :=
  exec_of_read (request := parseNone []) (run := fun _ s => s.wipeBindings) rfl hs rfl

theorem wiped_frame (s : State) : writtenAll (unboundAll s) = { s with
    cars := (writtenAll (unboundAll s)).cars, watch := (writtenAll (unboundAll s)).watch
    store := (writtenAll (unboundAll s)).store } := by
  have hw := writtenAll_frame (unboundAll s)
  have hu := unboundAll_frame s
  generalize writtenAll (unboundAll s) = t at hw ⊢
  generalize unboundAll s = u at hw hu
  rw [hw, hu]

/-- Settles O16: the pairing aborted, every slot unbound, and eight writes requested. -/
theorem wipeBindingsErasesAll : Obligations.WipeBindingsErasesAll := by
  intro s hs
  rw [exec_wipeBindings hs]
  refine ⟨fun ht => ?wiped, fun h1 h2 => ?refused⟩
  case wiped =>
    obtain ⟨hcars, -, hstore, htrack⟩ := pairingAborted_keeps s
    have hstore' : (unboundAll (pairingAborted s)).store = s.store := by rw [unboundAll_frame]; exact hstore
    have hwipe : s.wipeBindings = (writtenAll (unboundAll (pairingAborted s))).respond .ok [] := by
      rw [← wipe_eq]
      rcases ht with ht | ht <;> rw [State.wipeBindings, ht]
    have hcar (k : Slot) : (writtenAll (unboundAll (pairingAborted s))).car k
        = Car.recompute s.track (unboundRecord (s.car k)) := by
      rw [wiped_car, htrack, State.car, hcars]
      rfl
    refine ⟨_, congrArg _ hwipe, fun k => ⟨hcar k, wiped_watchOf _ k⟩, fun hf => ?waiting, fun hf => ?idle, ?frame⟩
    case waiting =>
      have := writtenAll_waiting (s := unboundAll (pairingAborted s)) (by rw [hstore']; exact hf)
      rw [hstore'] at this
      exact this
    case idle =>
      have hidle : (unboundAll (pairingAborted s)).store.inFlight = none := by rw [hstore']; exact hf
      have hbinding : ((unboundAll (pairingAborted s)).car 0).binding = none := by
        rw [unboundAll_car]
        rfl
      have := writtenAll_idle hidle
      rw [hstore', hbinding] at this
      exact this
    case frame =>
      rw [wiped_frame]
      rfl
  case refused =>
    unfold State.wipeBindings
    split
    · exact absurd ‹_› h1
    · exact absurd ‹_› h2
    · rfl

end Sys2Proof.Proofs.Bindings
end

section
/-! PROOFS. The Binding Store load (R4, R174, R184): what each slot takes from its record and those of the lower slots. -/

namespace Sys2Proof.Proofs.StoreLoad

open Sys2Proof Sys2Proof.Machine Host Arguments Kept Bindings

/-- A slot's record is good: erased, or an identity that no lower slot's record holds (R174). -/
def GoodAt (rs : Vector StoredRecord 8) (k : Slot) : Prop :=
  readRecord k rs[k] = some none
    ∨ ∃ h, readRecord k rs[k] = some (some h) ∧ ∀ j, j < k → readRecord j rs[j] ≠ some (some h)

/-- What the load gives a slot: the binding, and whether the record is bad. -/
def loadOf (rs : Vector StoredRecord 8) (k : Slot) : Option Hid × Bool :=
  match readRecord k rs[k] with
  | none => (none, true)
  | some none => (none, false)
  | some (some h) => if ∃ j, j < k ∧ readRecord j rs[j] = some (some h) then (none, true) else (some h, false)

theorem loadOf_erased {rs : Vector StoredRecord 8} {k : Slot} (h : readRecord k rs[k] = some none) :
    loadOf rs k = (none, false) := by
  unfold loadOf
  rw [h]

theorem loadOf_bound {rs : Vector StoredRecord 8} {k : Slot} {h : Hid} (hr : readRecord k rs[k] = some (some h))
    (hl : ∀ j, j < k → readRecord j rs[j] ≠ some (some h)) : loadOf rs k = (some h, false) := by
  unfold loadOf
  rw [hr]
  exact if_neg fun ⟨j, hj, e⟩ => hl j hj e

theorem loadOf_bad {rs : Vector StoredRecord 8} {k : Slot} (h : ¬ GoodAt rs k) : loadOf rs k = (none, true) := by
  unfold loadOf
  cases hr : readRecord k rs[k] with
  | none => rfl
  | some b =>
    cases b with
    | none => exact absurd (.inl hr) h
    | some i =>
      refine if_pos (Classical.byContradiction fun hn => h (.inr ⟨i, hr, fun j hj e => hn ⟨j, hj, e⟩⟩))

theorem loadOf_bad_iff (rs : Vector StoredRecord 8) (k : Slot) : (loadOf rs k).2 = true ↔ ¬ GoodAt rs k := by
  refine ⟨fun hb hg => ?_, fun h => by rw [loadOf_bad h]⟩
  rcases hg with h | ⟨i, h, hl⟩
  · rw [loadOf_erased h] at hb
    exact nomatch hb
  · rw [loadOf_bound h hl] at hb
    exact nomatch hb

/-- The load takes the slots in order, with the identities of the slots before. -/
theorem loadSlots_from (rs : Vector StoredRecord 8) : ∀ (pre ks : List Slot) (taken : List Hid),
    (pre ++ ks).Pairwise (· < ·) → (∀ k : Slot, k ∈ pre ++ ks) →
    (∀ h, h ∈ taken ↔ ∃ j ∈ pre, readRecord j rs[j] = some (some h)) →
    loadSlots rs ks taken = ks.map fun k => (k, loadOf rs k)
  | _, [], _, _, _, _ => rfl
  | pre, k :: ks, taken, hsorted, hall, htaken => by
    have hbefore (j : Slot) : j ∈ pre ↔ j < k := by
      obtain ⟨-, hks, hpre⟩ := List.pairwise_append.mp hsorted
      refine ⟨fun hj => hpre j hj k List.mem_cons_self, fun hj => ?_⟩
      rcases List.mem_append.mp (hall j) with h | h
      · exact h
      · rcases List.mem_cons.mp h with rfl | h
        · exact absurd hj (lt_irrefl _)
        · exact absurd ((List.pairwise_cons.mp hks).1 j h) (lt_asymm hj)
    have hseen (h : Hid) : h ∈ taken ↔ ∃ j, j < k ∧ readRecord j rs[j] = some (some h) :=
      (htaken h).trans (exists_congr fun j => and_congr_left fun _ => hbefore j)
    have hassoc : pre ++ [k] ++ ks = pre ++ k :: ks := by simp
    have ih (taken' : List Hid) (h : ∀ h, h ∈ taken' ↔ ∃ j ∈ pre ++ [k], readRecord j rs[j] = some (some h)) :
        loadSlots rs ks taken' = ks.map fun k => (k, loadOf rs k) :=
      loadSlots_from rs (pre ++ [k]) ks taken' (by rw [hassoc]; exact hsorted) (by rw [hassoc]; exact hall) h
    have hsame (hk : ∀ h, readRecord k rs[k] = some (some h) → h ∈ taken) (h : Hid) :
        h ∈ taken ↔ ∃ j ∈ pre ++ [k], readRecord j rs[j] = some (some h) := by
      rw [htaken]
      refine ⟨fun ⟨j, hj, e⟩ => ⟨j, List.mem_append_left _ hj, e⟩, fun ⟨j, hj, e⟩ => ?_⟩
      rcases List.mem_append.mp hj with hj | hj
      · exact ⟨j, hj, e⟩
      · obtain rfl := List.mem_singleton.mp hj
        exact (htaken h).mp (hk h e)
    rw [List.map_cons]
    unfold loadSlots
    split
    · next hr =>
      rw [ih taken (hsame fun h e => by rw [hr] at e; exact nomatch e), loadOf, hr]
    · next hr =>
      rw [ih taken (hsame fun h e => by rw [hr] at e; exact nomatch e), loadOf_erased hr]
    · next h hr =>
      by_cases hc : h ∈ taken
      · rw [if_pos (List.contains_iff_mem.mpr hc), ih taken (hsame fun i e => by
          rw [hr] at e
          injection e with e
          injection e with e
          rwa [← e])]
        have : loadOf rs k = (none, true) := by
          unfold loadOf
          rw [hr]
          exact if_pos ((hseen h).mp hc)
        rw [this]
      · have hnot : ¬ taken.contains h = true := fun e => hc (List.contains_iff_mem.mp e)
        rw [if_neg hnot, ih (h :: taken) fun i => ?_, loadOf_bound hr fun j hj e => hc ((hseen h).mpr ⟨j, hj, e⟩)]
        rw [List.mem_cons, htaken]
        constructor
        · rintro (rfl | ⟨j, hj, e⟩)
          · exact ⟨k, by simp, hr⟩
          · exact ⟨j, List.mem_append_left _ hj, e⟩
        · rintro ⟨j, hj, e⟩
          rcases List.mem_append.mp hj with hj | hj
          · exact .inr ⟨j, hj, e⟩
          · obtain rfl := List.mem_singleton.mp hj
            rw [hr] at e
            injection e with e
            injection e with e
            exact .inl e.symm

theorem loadSlots_eq (rs : Vector StoredRecord 8) : loadSlots rs allSlots [] = allSlots.map fun k => (k, loadOf rs k) :=
  loadSlots_from rs [] allSlots [] allSlots_sorted mem_allSlots fun h => by simp

/-! ### The slots loaded -/

theorem loadSlot_driven (s : State) (x : Slot × Option Hid × Bool) (j : Slot) :
    driven (s.loadSlot x) j = if j = x.1 then ((driven s j).1, Car.recompute (driven s j).1
      { unboundRecord (driven s j).2 with
        binding := x.2.1, link := quietLink x.2.1, storeStatus := if x.2.2 then .unsaved else .saved }) else driven s j := by
  have htrack : (s.loadSlot x).track = s.track := by
    rw [(loadSlot_loaded s x).frame]
  have hcar : (s.loadSlot x).car j = if j = x.1 then
      { (s.changeBinding x.1 x.2.1).car x.1 with storeStatus := if x.2.2 then .unsaved else .saved }
      else (s.changeBinding x.1 x.2.1).car j := slot_set (s.changeBinding x.1 x.2.1).cars x.1 j _
  have hbind (j : Slot) : (s.changeBinding x.1 x.2.1).car j
      = if j = x.1 then Car.recompute s.track (Car.rebind x.2.1 (s.car x.1)) else s.car j := by
    rw [changeBinding_eq]
    exact slot_set s.cars x.1 j _
  rw [driven, hcar, htrack, hbind, hbind, if_pos rfl, recompute_rebind]
  by_cases h : j = x.1
  · rw [if_pos h, if_pos h, h]
    rfl
  · rw [if_neg h, if_neg h, if_neg h]
    rfl

theorem loadSlot_watchOf (s : State) (x : Slot × Option Hid × Bool) (j : Slot) :
    (s.loadSlot x).watchOf j = if j = x.1 then none else s.watchOf j := changeBinding_watchOf s x.1 j x.2.1

theorem loadSlot_bad (s : State) (x : Slot × Option Hid × Bool) (j : Slot) :
    (s.loadSlot x).store.bad[j] = if j = x.1 then x.2.2 else s.store.bad[j] := by
  have hstore : (s.changeBinding x.1 x.2.1).store = s.store := by rw [changeBinding_eq]
  rw [← hstore]
  exact slot_set (s.changeBinding x.1 x.2.1).store.bad x.1 j x.2.2

/-- The identities that the slots take leave the unbound list (R32). -/
theorem mem_unbound_loaded (e : UnboundEntry) : ∀ (l : List (Slot × Option Hid × Bool)) (s : State),
    e ∈ (l.foldl State.loadSlot s).unbound ↔ e ∈ s.unbound ∧ ∀ x ∈ l, x.2.1 ≠ some e.hid
  | [], s => by simp
  | x :: l, s => by
    rw [List.foldl_cons, mem_unbound_loaded e l, loadSlot_unbound, List.forall_mem_cons, ← and_assoc]
    refine and_congr_left fun _ => ?_
    cases hx : x.2.1 with
    | none => simp [leaveUnbound]
    | some h =>
      rw [leaveUnbound_some, List.mem_filter, decide_eq_true_eq]
      exact and_congr_right fun _ => ⟨fun hn hs => hn (Option.some.inj hs).symm, fun hn he => hn (by rw [he])⟩

/-- The slots loaded, in order. -/
def slotsLoaded (s : State) : State := (allSlots.map fun k => (k, loadOf s.store.records k)).foldl State.loadSlot s

theorem slotsLoaded_frame (s : State) : slotsLoaded s = { s with
    cars := (slotsLoaded s).cars, watch := (slotsLoaded s).watch, unbound := (slotsLoaded s).unbound
    store := { s.store with bad := (slotsLoaded s).store.bad } } :=
  (List.foldlRecOn (motive := SlotsLoaded s) _ _ (.refl s) fun _ hu x _ => hu.trans (loadSlot_loaded _ x)).frame

theorem slotsLoaded_car (s : State) (k : Slot) : (slotsLoaded s).car k = Car.recompute s.track
    { unboundRecord (s.car k) with
      binding := (loadOf s.store.records k).1, link := quietLink (loadOf s.store.records k).1
      storeStatus := if (loadOf s.store.records k).2 then .unsaved else .saved } := by
  have h : driven (slotsLoaded s) k = _ := foldl_allSlots (get := driven) (op := State.loadSlot) (key := Prod.fst)
    (f := fun k => (k, loadOf s.store.records k))
    (g := fun x d => (d.1, Car.recompute d.1 { unboundRecord d.2 with
      binding := x.2.1, link := quietLink x.2.1, storeStatus := if x.2.2 then .unsaved else .saved }))
    (fun _ => rfl) loadSlot_driven s k
  show (driven (slotsLoaded s) k).2 = _
  rw [h]
  rfl

theorem slotsLoaded_watch (s : State) : (slotsLoaded s).watch = Vector.replicate 8 none := by
  ext1 i hi
  have h : (slotsLoaded s).watchOf ⟨i, hi⟩ = none :=
    foldl_allSlots (get := State.watchOf) (op := State.loadSlot) (key := Prod.fst)
      (f := fun k => (k, loadOf s.store.records k)) (g := fun _ _ => none) (fun _ => rfl) loadSlot_watchOf s ⟨i, hi⟩
  rw [Vector.getElem_replicate]
  exact h

theorem slotsLoaded_bad (s : State) (k : Slot) : (slotsLoaded s).store.bad[k] = (loadOf s.store.records k).2 :=
  foldl_allSlots (get := fun s k => s.store.bad[k]) (op := State.loadSlot) (key := Prod.fst)
    (f := fun k => (k, loadOf s.store.records k)) (g := fun x _ => x.2.2) (fun _ => rfl) loadSlot_bad s k

theorem mem_slotsLoaded_unbound (s : State) (e : UnboundEntry) :
    e ∈ (slotsLoaded s).unbound ↔ e ∈ s.unbound ∧ ∀ k, ((slotsLoaded s).car k).binding ≠ some e.hid := by
  unfold slotsLoaded
  rw [mem_unbound_loaded]
  refine and_congr_right fun _ => ?_
  have hbinding (k : Slot) : ((slotsLoaded s).car k).binding = (loadOf s.store.records k).1 := by
    rw [slotsLoaded_car]
    rfl
  constructor
  · intro h k
    show ((slotsLoaded s).car k).binding ≠ _
    rw [hbinding]
    exact h _ (List.mem_map_of_mem (mem_allSlots k))
  · intro h x hx
    obtain ⟨k, -, rfl⟩ := List.mem_map.mp hx
    have := h k
    rwa [show ((List.foldl State.loadSlot s (allSlots.map fun k => (k, loadOf s.store.records k))).car k).binding = _ from
      hbinding k] at this

theorem anyBad_iff (st : Store) : st.anyBad = true ↔ ∃ k : Slot, st.bad[k] = true := by
  unfold Store.anyBad
  rw [List.any_eq_true]
  exact ⟨fun ⟨k, _, h⟩ => ⟨k, h⟩, fun ⟨k, h⟩ => ⟨k, mem_allSlots k, h⟩⟩

/-! ### The completion -/

theorem exec_storeLoadCompletion (s : State) : exec .storeLoadCompletion s = s.take fun s =>
    match s.store.load with
    | .loading => s.completeLoad
    | .ready => s := by
  unfold exec
  rfl

theorem completeLoad_eq (s : State) : s.completeLoad = { slotsLoaded s with
    served := true
    store := { (slotsLoaded s).store with load := .ready }
    flags := { (slotsLoaded s).flags with fault := (slotsLoaded s).flags.fault || (slotsLoaded s).store.anyBad } } := by
  have h : (loadSlots s.store.records allSlots []).foldl State.loadSlot s = slotsLoaded s := by
    rw [loadSlots_eq]
    rfl
  unfold State.completeLoad
  rw [h]
  generalize slotsLoaded s = u
  exact raiseIf_fault _ _

/-- Settles O29: each slot takes what its record and those of the lower slots give. -/
theorem storeLoadBindsSlots : Obligations.StoreLoadBindsSlots := by
  intro s hs
  simp only [exec_storeLoadCompletion, take_of_running hs]
  refine ⟨fun h => by rw [h], fun h => ?_⟩
  rw [h]
  dsimp only
  rw [completeLoad_eq]
  have hframe := slotsLoaded_frame s
  have hcar := slotsLoaded_car s
  have hunbound := mem_slotsLoaded_unbound s
  have hwatch := slotsLoaded_watch s
  have hbad (k : Slot) : (slotsLoaded s).store.bad[k] = true ↔ ¬ GoodAt s.store.records k := by
    rw [slotsLoaded_bad]
    exact loadOf_bad_iff s.store.records k
  generalize slotsLoaded s = u at hframe hcar hunbound hwatch hbad ⊢
  refine ⟨_, rfl, rfl, rfl, fun k i hr hl => ?bound, fun k hr => ?erased, fun k hb => ?bad, hbad, hunbound, ?fault, ?frame⟩
  case bound =>
    refine (hcar k).trans ?_
    rw [loadOf_bound hr hl]
    rfl
  case erased =>
    refine (hcar k).trans ?_
    rw [loadOf_erased hr]
    rfl
  case bad =>
    refine (hcar k).trans ?_
    rw [loadOf_bad hb]
    rfl
  case fault =>
    show (u.flags.fault || u.store.anyBad) = true ↔ _
    rw [Bool.or_eq_true, anyBad_iff]
    exact or_congr (by rw [hframe]) (exists_congr hbad)
  case frame =>
    rw [hframe, ← hwatch]

end Sys2Proof.Proofs.StoreLoad
end

section
/-! PROOFS. Reads, pairing, race and reset commands, and the resets (R19, R33, R75, R76, R101, R127, R156, R157, R160,
R168, R170, R186, R192, R193). -/

namespace Sys2Proof.Proofs.Console

open Sys2Proof Sys2Proof.Machine Host Arguments TrackCommands

/-! ### Reads -/

theorem codesCountUp : CodesCountUp where
  link := rfl
  lanes := ⟨rfl, rfl, rfl⟩
  store := ⟨rfl, rfl⟩
  track := ⟨rfl, rfl⟩
  nodes := ⟨rfl, rfl, rfl, rfl⟩
  claims := ⟨rfl, rfl, rfl, rfl⟩
  decisions := ⟨rfl, rfl⟩
  pairing := ⟨rfl, rfl⟩
  statuses := rfl

/-- An optional field has one length, whether present or not. -/
theorem opt_length {α : Type} {w : Nat} {value : α → List Byte} (h : ∀ v, (value v).length = w) (o : Option α) :
    (Layout.opt w value o).length = w + 1 := by
  cases o with
  | none => exact List.length_replicate
  | some v => exact congrArg (· + 1) (h v)

theorem two_length (n : Nat) : (Layout.two n).length = 2 := rfl

theorem four_length (v : BitVec 32) : (Layout.four v).length = 4 := rfl

theorem opt_two_length (o : Option Nat) : (Layout.opt 2 Layout.two o).length = 3 := opt_length two_length o

theorem opt_four_length (o : Option (BitVec 32)) : (Layout.opt 4 Layout.four o).length = 5 := opt_length four_length o

theorem opt_byte_length {α : Type} (f : α → Byte) (o : Option α) : (Layout.opt 1 (fun x => [f x]) o).length = 2 :=
  opt_length (w := 1) (value := fun x => [f x]) (fun _ => rfl) o

theorem car_length (r : Car) : (Layout.car r).length = 59 := by
  simp only [Layout.car, List.length_append, List.length_cons, List.length_nil, List.length_map, List.length_finRange,
    opt_four_length, opt_two_length, opt_byte_length, two_length]

theorem node_length (n : Node) : (Layout.node n).length = 11 := by
  simp only [Layout.node, List.length_append, List.length_cons, List.length_nil, opt_four_length, opt_byte_length]

theorem clear_length (c : ClearTime) : (Layout.clear c).length = 5 := by cases c <;> rfl

theorem claim_length (c : Claim) : (Layout.claim c).length = 23 := by
  simp only [Layout.claim, List.length_append, List.length_cons, List.length_nil, opt_four_length, clear_length, four_length]

theorem sectionRecord_length (s : State) (sec : Section) :
    (Layout.sectionRecord s sec).length = 37 + 23 * sec.claims.length := by
  have hlink (l : Option Link) : (Layout.linkOptional l).length = 4 :=
    opt_length (w := 3) (value := fun l : Link => Layout.addr l.node :: Layout.two l.distance) (fun _ => rfl) l
  have hclaims : (sec.claims.flatMap Layout.claim).length = 23 * sec.claims.length := by
    rw [List.length_flatMap, List.map_congr_left fun c _ => claim_length c, List.map_const', List.sum_replicate,
      smul_eq_mul, Nat.mul_comm]
  simp only [Layout.sectionRecord, Layout.map, List.length_append, List.length_cons, List.length_nil, opt_four_length,
    two_length, hlink, hclaims]

theorem pairing_length (p : Pairing) (r : PairingResult) : (Layout.pairing p r).length = 40 := by
  have hmode (m : PairingMode) : (Layout.pairingMode m).length = 1 := by cases m <;> rfl
  simp only [Layout.pairing, List.length_append, List.length_cons, List.length_nil, opt_four_length, opt_byte_length,
    opt_length hmode, two_length]

theorem status_length (s : State) : (Layout.status s).length = 30 := by
  have hwake (w : WakeCause) : (Layout.lastWake w).length = 2 := by cases w <;> rfl
  simp only [Layout.status, List.length_append, List.length_cons, List.length_nil, opt_byte_length, opt_length hwake,
    two_length, four_length]

theorem parseAddr_addrCode (a : Addr) : parseAddr [addrCode a] = some a := addrOfByte_addrCode a

/-- Settles O17: each read answers with its record and changes nothing else. -/
theorem readCommandsChangeNothing : Obligations.ReadCommandsChangeNothing := by
  refine ⟨codesCountUp, fun s hs => ?_⟩
  refine ⟨fun k => ⟨?car, car_length _⟩, fun a => ⟨?node, node_length _⟩, fun a sec hsec => ⟨?record, sectionRecord_length s sec⟩,
    fun a hsec => ?absent, ?pairing, pairing_length _ _, ?unbound, ?status, status_length s⟩
  case car =>
    rw [← Car.bytes_eq_layout]
    exact exec_of_read (exec_readCar _ s) hs (CarTable.parseSlot_slotCode k)
  case node =>
    rw [← Node.bytes_eq_layout]
    exact exec_of_read (exec_readNode _ s) hs (parseAddr_addrCode a)
  case record =>
    rw [← State.sectionBytes_eq_layout]
    refine (exec_of_read (exec_readSection _ s) hs (parseAddr_addrCode a)).trans ?_
    rw [State.readSection, hsec]
    rfl
  case absent =>
    refine (exec_of_read (exec_readSection _ s) hs (parseAddr_addrCode a)).trans ?_
    rw [State.readSection, hsec]
    rfl
  case pairing =>
    rw [← Pairing.bytes_eq_layout]
    exact exec_of_read (exec_readPairing _ s) hs rfl
  case unbound => exact exec_of_read (exec_readUnbound _ s) hs rfl
  case status =>
    rw [← State.statusBytes_eq_layout]
    exact exec_of_read (exec_readStatus _ s) hs rfl

/-! ### Pairing (R160, R168) -/

theorem mem_allAddrs (a : Addr) : a ∈ allAddrs := (by decide : ∀ a : Addr, a ∈ allAddrs) a

theorem padLive_iff (s : State) : s.padLive = true ↔ ∃ a, (s.node a).role = .pad ∧ (s.node a).status = .live := by
  unfold State.padLive
  simp only [List.any_eq_true, Bool.and_eq_true, decide_eq_true_eq]
  exact ⟨fun ⟨a, _, h⟩ => ⟨a, h⟩, fun ⟨a, h⟩ => ⟨a, mem_allAddrs a, h⟩⟩

theorem parseOpenPairing_mode (mode : PairingMode) :
    parseOpenPairing [match mode with
      | .auto => 0
      | .slot k => slotCode k] = some mode := by
  cases mode with
  | auto => rfl
  | slot k =>
    have h0 : slotCode k ≠ 0 := by
      intro e
      have := slotOfByte_slotCode k
      rw [e] at this
      exact nomatch this
    show (if slotCode k = 0 then some PairingMode.auto else (slotOfByte (slotCode k)).map .slot) = _
    rw [if_neg h0, slotOfByte_slotCode]
    rfl

/-- Settles O21: the refusals in their order, else the pairing opened. -/
theorem openPairingStartsOrRefuses : Obligations.OpenPairingStartsOrRefuses := by
  intro s mode hs arg live answer
  have hexec : exec (.openPairing [arg]) s = .next (s.openPairing mode) :=
    exec_of_read (exec_openPairing _ s) hs (parseOpenPairing_mode mode)
  rw [hexec]
  unfold State.openPairing
  refine ⟨fun h => ?busy, fun h ht => ?state, fun h ht hp => ?pad, fun h ht hp => ?opened⟩
  case busy =>
    rw [if_pos h]
    rfl
  case state =>
    rw [if_neg (not_not.mpr h), if_pos ht]
    rfl
  case pad =>
    have : s.padLive = false := by rw [← Bool.not_eq_true, padLive_iff]; exact hp
    rw [if_neg (not_not.mpr h), if_neg (not_not.mpr ht), this]
    rfl
  case opened =>
    have : s.padLive = true := (padLive_iff s).mpr hp
    rw [if_neg (not_not.mpr h), if_neg (not_not.mpr ht), this]
    cases mode <;> rfl

theorem exec_closePairing {s : State} (hs : Served s) : exec (.closePairing []) s = .next s.closePairing :=
  exec_of_read (request := parseNone []) (run := fun _ s => s.closePairing) rfl hs rfl

theorem exec_pairingWindowExpiry (s : State) : exec .pairingWindowExpiry s = s.take fun s =>
    if s.pairing.state ≠ .idle ∧ expired s.now s.pairing.windowExpiry = true then s.endPairing .timeout else s := rfl

/-- An ending from outside refuses the candidate (R169). -/
theorem pairingEnded_outside {s : State} {o : PairingOutcome} (ho : o = .timeout ∨ o = .aborted) :
    pairingEnded s o = { s with
      pairing := Pairing.idle
      result := { slot := s.pairing.slot, hid := s.pairing.candidate, outcome := o, attempts := s.pairing.attempt
                  ignored := s.pairing.ignored, store := .none }
      rail := if s.pairing.state = .programming then s.stopBurst.rail else s.rail
      notices := match s.pairing.candidate with
        | some h => if s.notices.length < 4 then s.notices ++ [{ hid := h, kind := .refused }] else s.notices
        | none => s.notices
      flags := { s.flags with pairing := true } } := by
  unfold pairingEnded
  cases s.pairing.candidate <;> simp [ho]

/-- Settles O22: the ending from outside, or nothing. -/
theorem pairingEndedFromOutside : Obligations.PairingEndedFromOutside := by
  intro s ended
  refine ⟨fun hs hp => ?closed, fun hs hp => ?idle, fun hr hp he => ?timeout, fun hr h => ?skipped⟩
  case closed =>
    rw [exec_closePairing hs, State.closePairing, if_neg hp, endPairing_ended s _ (by decide),
      pairingEnded_outside (.inr rfl)]
    rfl
  case idle =>
    rw [exec_closePairing hs, State.closePairing, if_pos hp]
    rfl
  case timeout =>
    rw [exec_pairingWindowExpiry, take_of_running hr, if_pos ⟨hp, he⟩]
    exact congrArg Outcome.next ((endPairing_ended s _ (by decide)).trans (pairingEnded_outside (.inl rfl)))
  case skipped =>
    rw [exec_pairingWindowExpiry, take_of_running hr, if_neg]
    exact fun h' => h.elim (absurd · h'.1) fun h => absurd (h.symm.trans h'.2) (by decide)

/-! ### Race, status and reset commands (R156, R157, R192, R193) -/

theorem exec_newRace {s : State} (hs : Served s) : exec (.newRace []) s = .next s.newRace :=
  exec_of_read (request := parseNone []) (run := fun _ s => s.newRace) rfl hs rfl

theorem exec_readDecision {s : State} (hs : Served s) : exec (.readDecision []) s = .next s.readDecision :=
  exec_of_read (request := parseNone []) (run := fun _ s => s.readDecision) rfl hs rfl

theorem exec_clearCounters {s : State} (hs : Served s) : exec (.clearCounters []) s = .next s.clearCounters :=
  exec_of_read (request := parseNone []) (run := fun _ s => s.clearCounters) rfl hs rfl

/-- Settles O24: the queue and the sections of a new race; the oldest record taken out by a read. -/
theorem newRaceAndReadDecision : Obligations.NewRaceAndReadDecision := by
  intro s hs
  rw [exec_newRace hs, exec_readDecision hs]
  refine ⟨fun ht => ?race, fun ht => ?refused, fun h => ?empty, fun d rest h => ?read⟩
  case race =>
    have hrun : s.newRace
        = ({ s.mapSections (Section.newRace s.pointerByMode) with decisions := [] } : State).respond .ok [] := by
      rw [State.newRace, ht]
    rw [hrun]
    rfl
  case refused =>
    unfold State.newRace
    split
    · exact absurd ‹_› ht
    · rfl
  case empty =>
    have hread : s.readDecision = s.respond .ok [0] := by rw [State.readDecision, h]
    rw [hread]
    rfl
  case read =>
    rw [State.readDecision, h, ← Decision.bytes_eq_layout]
    rfl

/-- Settles O26: every counter is set to 0. -/
theorem clearCountersZeroesAll : Obligations.ClearCountersZeroesAll := by
  intro s hs
  rw [exec_clearCounters hs]
  rfl

/-! ### Resets (R75, R76, R177) -/

theorem exec_softReset (s : State) : exec .softReset s = s.take fun s => if s.softResetDue then s.softReset else s := rfl

theorem quietLink_eq (b : Option Hid) : quietLink b = if b = none then .none else .silent := by cases b <;> rfl

theorem quietStatus_eq (role : Role) : quietStatus role = if role = .none then .unconfigured else .unheard := by
  cases role <;> rfl

/-- Settles O27: RESET marks; the soft reset due gives the reset values. -/
theorem resetCommandAndSoftReset : Obligations.ResetCommandAndSoftReset := by
  intro s
  refine ⟨fun hs => exec_of_read (exec_reset _ s) hs rfl, fun _ => rfl, fun hr hd => ?undue, fun hr hd => ?due⟩
  case undue =>
    rw [exec_softReset, take_of_running hr, hd]
    rfl
  case due =>
    rw [exec_softReset, take_of_running hr, hd, if_pos rfl, State.softReset]
    simp only [Car.softReset, Node.softReset, quietLink_eq, quietStatus_eq]
    rfl

/-- A store with nothing in flight or waiting, its load running (R172, R177). -/
structure StoreCleared (st : Store) : Prop where
  load : st.load = .loading
  dirty : ∀ k : Slot, st.dirty[k] = false
  inFlight : st.inFlight = none
  bad : ∀ k : Slot, st.bad[k] = false

theorem slot_replicate {α : Type} (x : α) (k : Slot) : (Vector.replicate 8 x)[k] = x := Vector.getElem_replicate k.isLt

theorem storePor_cleared (st : Store) : StoreCleared st.por :=
  ⟨rfl, slot_replicate false, rfl, slot_replicate false⟩

theorem storeFresh_cleared : StoreCleared Store.fresh := ⟨rfl, slot_replicate false, rfl, slot_replicate false⟩

/-- The POR values, block by block (R75). -/
theorem por_values (p : List Instr) (h r : Bool) {st : Store} (hst : StoreCleared st) : PorValues (State.por p h r st) where
  cif := ⟨rfl, rfl, rfl, rfl, rfl, rfl, rfl⟩
  hrx := ⟨rfl, rfl, slot_replicate none, rfl, rfl, rfl⟩
  cars := Kept.por_car p h r st
  rfg := rfl
  tsc := ⟨rfl, rfl, rfl, rfl, rfl, rfl⟩
  nbi := ⟨Kept.por_node p h r st, rfl, rfl, rfl, rfl⟩
  sar := ⟨slot_replicate Position.absent, Kept.por_sectionAt p h r st, rfl, rfl, rfl⟩
  pct := ⟨rfl, rfl, rfl⟩
  bst := ⟨hst.load, hst.dirty, hst.inFlight, hst.bad⟩

/-- A write in flight is cut, and its record with it (R177). -/
theorem storePor_record (st : Store) (k : Slot) :
    st.por.records[k] = if st.inFlight.map (fun w => w.slot) = some k then .damaged else st.records[k] := by
  unfold Store.por
  cases h : st.inFlight with
  | none => rfl
  | some w =>
    refine (Bindings.slot_set st.records w.slot k .damaged).trans (if_congr ?_ rfl rfl)
    exact ⟨fun e => by rw [e]; rfl, fun e => (Option.some.inj e).symm⟩

theorem storePor_records_of_idle {st : Store} (h : st.inFlight = none) : st.por.records = st.records := by
  unfold Store.por
  rw [h]

/-- Settles O28: both resets hold the POR values with the records kept, and the release gives them. -/
theorem powerOnAndPinReset : Obligations.PowerOnAndPinReset := by
  intro s
  refine ⟨⟨s.hold, rfl, rfl, por_values _ _ _ (storePor_cleared _), rfl, rfl, rfl, storePor_record s.store⟩,
    fun hh hf => ?release, fun hh => ?running, por_values _ _ _ storeFresh_cleared, rfl⟩
  case release =>
    have hrun : exec .resetRelease s = .next (State.por s.pending false s.railflt s.store.por) :=
      congrArg Outcome.next (if_pos hh)
    exact ⟨_, hrun, por_values _ _ _ (storePor_cleared _), rfl, rfl, rfl, storePor_records_of_idle hf⟩
  case running => exact congrArg Outcome.next (if_neg (ne_true_of_eq_false hh))

end Sys2Proof.Proofs.Console
end

section
/-! PROOFS. The rows of the recomputation (R43 to R53), the windows of claims (R128 to R133), overlap, conflict and the
flipper hold (R137, R138, R140), and the words of the rails (R199). -/

namespace Sys2Proof.Proofs.Arithmetic

open Sys2Proof Sys2Proof.Machine Host

/-! ### Recomputation -/

theorem targetFor_stopped {t : TrackState} (h : Stopped t) (r : Car) : r.targetFor t = (0, true) := by
  rcases h with rfl | rfl | rfl <;> rfl

/-- The rows of R43 below the first. -/
theorem targetFor_racing {t : TrackState} (h : ¬ Stopped t) (r : Car) : r.targetFor t =
    match r.consoleDrive with
    | some level => (min level r.speedLimit, false)
    | none =>
      match r.link with
      | .live => if r.inputs.brake then (0, true) else (r.handsetTarget t, false)
      | .fade => if r.inputs.brake then (0, true) else (r.handsetTarget t, false)
      | _ => (0, true) := by
  cases t with
  | standby => exact absurd (.inl rfl) h
  | settle => exact absurd (.inr (.inl rfl)) h
  | halt => exact absurd (.inr (.inr rfl)) h
  | run => rfl
  | caution => rfl

/-- The handset path under the speed limit (R44 to R47). -/
def handsetLevel (t : TrackState) (r : Car) : Nat :=
  min (curveLevel (if t = .caution then r.cautionCurve else r.raceCurve)
    (normalise r.calLo r.calHi r.inputs.thr)) r.speedLimit

theorem handsetTarget_live (t : TrackState) {r : Car} (h : r.link = .live) : r.handsetTarget t = handsetLevel t r := by
  unfold Car.handsetTarget handsetLevel
  rw [h]
  cases t <;> rfl

theorem handsetTarget_fade (t : TrackState) {r : Car} (h : r.link = .fade) :
    r.handsetTarget t = min (handsetLevel t r) r.fadeCap := by
  unfold Car.handsetTarget handsetLevel
  rw [h]
  cases t <;> rfl

theorem limitCut_eq (r : Car) : r.limitCut = if r.link = .fade ∧ r.consoleDrive = none then
    min (min r.output r.speedLimit) r.fadeCap else min r.output r.speedLimit := rfl

/-- Settles O49: the rows of R43 in their order, and the limit cut. -/
theorem recomputationFollowsTheRows : Obligations.RecomputationFollowsTheRows := by
  intro t r r' level
  have htarget : (r'.target, r'.brakeRequest) = r.targetFor t := rfl
  have rows {x : Nat × Bool} (h : r.targetFor t = x) : r'.target = x.1 ∧ r'.brakeRequest = x.2 := by
    rw [← h]
    exact ⟨rfl, rfl⟩
  refine ⟨fun h => rows (targetFor_stopped h r), fun h n hn => rows (x := (min n r.speedLimit, false)) ?console, fun h hn hl => rows (x := (0, true)) ?unheard,
    fun h hn hl hb => rows (x := (0, true)) ?braked, fun h hn hl hb => rows (x := (level, false)) ?live, fun h hn hl hb => rows (x := (min level r.fadeCap, false)) ?fading, limitCut_eq r, rfl⟩
  case console => rw [targetFor_racing h, hn]
  case unheard =>
    rw [targetFor_racing h, hn]
    rcases hl with hl | hl | hl <;> rw [hl]
  case braked =>
    rw [targetFor_racing h, hn]
    rcases hl with hl | hl <;> rw [hl] <;> exact if_pos hb
  case live =>
    rw [targetFor_racing h, hn, hl, hb, handsetTarget_live t hl]
    rfl
  case fading =>
    rw [targetFor_racing h, hn, hl, hb, handsetTarget_fade t hl]
    rfl

/-! ### Windows -/

/-- A claim STRAIGHT of a car slot (R122, R124, R133). -/
theorem straightClaim_slot (s : State) (sec : Section) (k : Slot) (lane : Lane) (o : ClaimOrigin) (st : ClaimState)
    (sense : TrackTime) (d : Nat) :
    straightClaim sec.map (s.motion sec (.slot k)) (.slot k) lane o st sense d =
      { car := .slot k, kind := if lane = .a then .straightA else .straightB, origin := o, state := st, sense := sense
        enter := (windowOf (s.car k) (levelOf s k) sense d sec.map.straight).1
        clear := (windowOf (s.car k) (levelOf s k) sense d sec.map.straight).2, decideTime := none, exitLane := lane
        lapse := lapseOf sec.map (windowOf (s.car k) (levelOf s k) sense d sec.map.straight).2 } := by
  unfold straightClaim
  rw [motion_enterOffset s sec k sense d sec.map.straight, motion_clearTime]
  cases lane <;> rfl

theorem anon_enterOffset (s : State) (sec : Section) (d : Nat) :
    (s.motion sec .anon).enterOffset d = min 65535 (d * 255000 / (3000 * 255)) := by
  by_cases h : d = 0
  · subst h
    rfl
  · exact (if_neg (by decide : ¬ (255 : Nat) = 0)).trans (if_neg h)

/-- The clear time of an ANON claim at the section's anon clear level (R125, R132). -/
theorem anon_clear (s : State) (sec : Section) (sense : TrackTime) (x : Nat) :
    clearAfter sense ((s.motion sec .anon).clearOffset x)
      = if sec.map.anonClear = 0 ∨ 65535 ≤ (x * 255000 + (3000 * sec.map.anonClear - 1)) / (3000 * sec.map.anonClear) then
          .unbounded
        else .bounded (sense + BitVec.ofNat 32 ((x * 255000 + (3000 * sec.map.anonClear - 1)) / (3000 * sec.map.anonClear))) := by
  unfold Motion.clearOffset State.motion travelCeil Config.travelMax
  dsimp only
  rw [Int.toNat_natCast]
  generalize (x * 255000 + (3000 * sec.map.anonClear - 1)) / (3000 * sec.map.anonClear) = q
  by_cases h0 : sec.map.anonClear = 0
  · have hneg : (sec.map.anonClear : Int) ≤ 0 := by omega
    rw [if_pos hneg, if_pos (.inl h0)]
    rfl
  · have hpos : ¬ (sec.map.anonClear : Int) ≤ 0 := by omega
    rw [if_neg hpos]
    by_cases hq : 65535 ≤ q
    · have hmin : 65535 ≤ min 65535 q := by omega
      rw [if_pos hmin, if_pos (.inr hq)]
      rfl
    · have hmin : ¬ 65535 ≤ min 65535 q := by omega
      have heq : min 65535 q = q := by omega
      rw [if_neg hmin, if_neg (fun h => h.elim h0 hq), heq]
      rfl

/-- The ANON claim of an entry (R125, R129). -/
theorem anonClaim_eq (s : State) (sec : Section) (x : Sighting) : s.anonClaim sec x = anonEntered sec.map x.lane x.sense := by
  unfold State.anonClaim straightClaim Motion.clearTime anonEntered
  rw [anon_enterOffset, anon_clear]
  cases x.lane <;> rfl

/-- Settles O50: the windows of car slots and of ANON claims. -/
theorem windowsOfClaims : Obligations.WindowsOfClaims := by
  intro s sec k level distance lane sense origin state hlevel m w x
  have hl : levelOf s k = level := by rw [levelOf, hlevel]
  subst hl
  refine ⟨straightClaim_slot s sec k lane origin state sense distance, motion_clearTime s sec k sense distance .crossAB,
    motion_clearTime s sec k sense distance .crossBA, ?_⟩
  intro c late
  have hc : c = anonEntered sec.map lane sense := anonClaim_eq s sec _
  rw [hc]
  exact ⟨rfl, rfl, rfl, rfl, rfl, rfl, rfl, rfl⟩

/-! ### Overlap, conflict and hold -/

theorem beforeClear_iff (t : TrackTime) (c : ClearTime) (g : Nat) :
    beforeClear t c g = true ↔ ∀ u, c = .bounded u → 0 < (u + BitVec.ofNat 32 g - t).toInt := by
  cases c with
  | bounded u =>
    refine decide_eq_true_iff.trans ⟨fun h v e => ?_, fun h => h u rfl⟩
    cases e
    exact h
  | unbounded => exact iff_of_true rfl fun _ e => nomatch e

theorem overlaps_iff (g : Nat) (a b : Claim) : overlaps g a b = true ↔
    (∀ u, b.clear = .bounded u → 0 < (u + BitVec.ofNat 32 g - a.enter).toInt)
      ∧ ∀ u, a.clear = .bounded u → 0 < (u + BitVec.ofNat 32 g - b.enter).toInt := by
  rw [overlaps, Bool.and_eq_true, beforeClear_iff, beforeClear_iff]

theorem overlaps_comm (g : Nat) (a b : Claim) : overlaps g a b = overlaps g b a := Bool.and_comm _ _

theorem related_iff (x y : ClaimKind) : x.related y = true ↔
    (x = .crossAB ∧ (y = .straightB ∨ y = .crossBA)) ∨ (x = .crossBA ∧ (y = .straightA ∨ y = .crossAB))
      ∨ (x = .straightA ∧ y = .crossBA) ∨ (x = .straightB ∧ y = .crossAB) := by
  cases x <;> cases y <;> decide

theorem related_comm (x y : ClaimKind) : x.related y = y.related x := by
  cases x <;> cases y <;> rfl

theorem conflicts_comm (g : Nat) (a b : Claim) : conflicts g a b = conflicts g b a := by
  rw [conflicts, conflicts, related_comm, overlaps_comm]

/-- The hold of a bounded release time (R140). -/
theorem flipperHold_bounded (m : SectionMap) (t now : TrackTime) : flipperHold m (.bounded t) now =
    if (t - now).toInt - (m.pullIn : Int) < 0 then (0, false)
    else if (m.coilLimit : Int) - m.pullIn < (t - now).toInt - (m.pullIn : Int) then
      (((m.coilLimit : Int) - m.pullIn).toNat, true)
    else (((t - now).toInt - (m.pullIn : Int)).toNat, false) := rfl

/-- Settles O51: overlap by the two clear times, conflict by kinds that share the crossing, the hold under its cap. -/
theorem overlapConflictAndHold : Obligations.OverlapConflictAndHold := by
  refine ⟨fun g a b => overlaps_iff g a b, fun g a b => ?conflict, fun g a b => ⟨overlaps_comm g a b, conflicts_comm g a b⟩,
    fun m now hm => ?hold⟩
  case conflict => rw [conflicts, Bool.and_eq_true, related_iff, and_comm]
  case hold =>
    have hcap : ((m.coilLimit : Int) - m.pullIn).toNat = m.coilLimit - m.pullIn := by omega
    refine ⟨?unbounded, fun t => ?bounded⟩
    case unbounded =>
      rw [← hcap]
      rfl
    case bounded =>
      intro h
      refine ⟨fun hn => ?below, fun h0 h1 => ?within, fun h1 => ?above⟩
      case below => rw [flipperHold_bounded, if_pos hn]
      case within => rw [flipperHold_bounded, if_neg (not_lt.mpr h0), if_neg (not_lt.mpr h1)]
      case above =>
        have h0 : ¬ (t - now).toInt - (m.pullIn : Int) < 0 := by
          have : h = (t - now).toInt - (m.pullIn : Int) := rfl
          omega
        rw [flipperHold_bounded, if_neg h0, if_pos h1, hcap]

/-! ### Words of the rails (R199) -/

/-- Parity sets bit 7 alone, and makes the number of one bits even. -/
theorem withParity_spec : ∀ b : Byte, b.toNat < 128 → (withParity b).toNat % 128 = b.toNat ∧ onesOf (withParity b) % 2 = 0 := by
  decide +kernel

/-- The low seven bits are those of the word without parity. -/
theorem getLsbD_withParity {b : Byte} (h : b.toNat < 128) {i : Nat} (hi : i < 7) :
    (withParity b).getLsbD i = b.toNat.testBit i := by
  have hmod := Nat.testBit_mod_two_pow (withParity b).toNat 7 i
  rw [show (2 : Nat) ^ 7 = 128 from rfl, (withParity_spec b h).1, decide_eq_true hi, Bool.true_and] at hmod
  exact hmod.symm

theorem carWord_fields : ∀ (code : Fin 32) (brake lane : Bool),
    (code.val % 32 + 32 * brake.toNat + 64 * lane.toNat).testBit 5 = brake
      ∧ (code.val % 32 + 32 * brake.toNat + 64 * lane.toNat).testBit 6 = lane := by
  decide

theorem carWord_spec {code : Nat} (h : code < 32) (brake lane : Bool) :
    (carWord code brake lane).toNat % 32 = code ∧ (carWord code brake lane).getLsbD 5 = brake
      ∧ (carWord code brake lane).getLsbD 6 = lane ∧ onesOf (carWord code brake lane) % 2 = 0 := by
  have hb := Bool.toNat_lt brake
  have hl := Bool.toNat_lt lane
  have hn : (byte1 (code % 32 + 32 * brake.toNat + 64 * lane.toNat)).toNat
      = code % 32 + 32 * brake.toNat + 64 * lane.toNat := Nat.mod_eq_of_lt (by omega)
  have hlt : (byte1 (code % 32 + 32 * brake.toNat + 64 * lane.toNat)).toNat < 128 := by omega
  obtain ⟨hmod, heven⟩ := withParity_spec _ hlt
  obtain ⟨h5, h6⟩ := carWord_fields ⟨code, h⟩ brake lane
  unfold carWord
  refine ⟨by omega, ?_, ?_, heven⟩
  · rw [getLsbD_withParity hlt (by decide), hn]
    exact h5
  · rw [getLsbD_withParity hlt (by decide), hn]
    exact h6

theorem statusWord_spec (t : TrackState) (n : BitVec 16) :
    (statusWord t n).toNat % 4 = trackCode t ∧ (statusWord t n).toNat / 4 % 16 = n.toNat % 16
      ∧ (statusWord t n).getLsbD 6 = false ∧ onesOf (statusWord t n) % 2 = 0 := by
  have ht : trackCode t ≤ 2 := by cases t <;> decide
  have hn : (byte1 (trackCode t + 4 * (n.toNat % 16))).toNat = trackCode t + 4 * (n.toNat % 16) :=
    Nat.mod_eq_of_lt (by omega)
  have hlt : (byte1 (trackCode t + 4 * (n.toNat % 16))).toNat < 128 := by omega
  obtain ⟨hmod, heven⟩ := withParity_spec _ hlt
  unfold statusWord
  refine ⟨by omega, by omega, ?_, heven⟩
  rw [getLsbD_withParity hlt (by decide), hn]
  exact Nat.testBit_lt_two_pow (by omega)

theorem programFrame_spec : ∀ k : Slot, (programFrame k).id.toNat % 128 = slotNumber k
    ∧ (programFrame k).complement.toNat % 128 = 127 - slotNumber k ∧ onesOf (programFrame k).id % 2 = 0
    ∧ onesOf (programFrame k).complement % 2 = 0 := by
  decide

theorem wordBits_eq (b : Byte) : wordBits b = [b.getLsbD 0, b.getLsbD 1, b.getLsbD 2, b.getLsbD 3, b.getLsbD 4,
    b.getLsbD 5, b.getLsbD 6, b.getLsbD 7] := rfl

theorem toList_eight {α : Type} (v : Vector α 8) : v.toList = [v[0], v[1], v[2], v[3], v[4], v[5], v[6], v[7]] := by
  refine List.ext_getElem (by simp) fun i h _ => ?_
  rw [Vector.length_toList] at h
  interval_cases i <;> simp

/-- Settles O37: the fields in their bits under even parity, and the words in their order. -/
theorem railAndPadWordsCarryTheirFields : Obligations.RailAndPadWordsCarryTheirFields := by
  refine ⟨fun code brake lane h => carWord_spec h brake lane, by decide, by decide, fun t n => ?status, programFrame_spec,
    fun f => ?rail, fun p => ?pad⟩
  case status =>
    obtain ⟨hcode, hcount, hzero, heven⟩ := statusWord_spec t n
    exact ⟨hcode.trans (by cases t <;> rfl), hcount, hzero, heven⟩
  case rail =>
    rw [RailFrame.bits, toList_eight]
    simp only [List.flatMap_cons, List.flatMap_nil, wordBits_eq, List.append_assoc, List.nil_append]
    rfl
  case pad =>
    rw [ProgramFrame.bits, wordBits_eq, wordBits_eq, List.append_assoc]
    rfl

/-! ### The millisecond (R75, R110) -/

theorem exec_lfsrStep (s : State) :
    exec .lfsrStep s = s.take fun s => { s with now := s.now + 1, lfsr := lfsrNext s.lfsr } := rfl

theorem lfsrNext_low (v : BitVec 16) {i : Nat} (h : i < 15) : (lfsrNext v).getLsbD i = v.getLsbD (i + 1) := by
  have hzero (b : Bool) : (if b then 0x8000#16 else 0#16).getLsbD i = false := by
    cases b <;> interval_cases i <;> decide
  rw [lfsrNext, BitVec.getLsbD_or, BitVec.getLsbD_ushiftRight, hzero, Bool.or_false, Nat.add_comm]

theorem lfsrNext_high (v : BitVec 16) : (lfsrNext v).getLsbD 15
    = (v.getLsbD 0 ^^ (v.getLsbD 2 ^^ (v.getLsbD 3 ^^ v.getLsbD 5))) := by
  have hout : v.getLsbD 16 = false := BitVec.getLsbD_of_ge v 16 (le_refl 16)
  have hbit (b : Bool) : (if b then 0x8000#16 else 0#16).getLsbD 15 = b := by cases b <;> decide
  rw [lfsrNext, BitVec.getLsbD_or, BitVec.getLsbD_ushiftRight, hbit, show 1 + 15 = 16 from rfl, hout, Bool.false_or,
    Bool.xor_assoc, Bool.xor_assoc]

/-- Settles O40: a millisecond counts and shifts; the pointer by mode. -/
theorem millisecondAndContestPointer : Obligations.MillisecondAndContestPointer := by
  intro s
  refine ⟨fun hr => ⟨lfsrNext s.lfsr, ?_, fun i hi => lfsrNext_low s.lfsr hi, lfsrNext_high s.lfsr⟩, fun h => ?one, fun h => ?random⟩
  · rw [exec_lfsrStep, take_of_running hr]
  case one =>
    rw [State.pointerByMode, h]
    rfl
  case random =>
    rw [State.pointerByMode, h]
    rfl

end Sys2Proof.Proofs.Arithmetic
end

section
/-! PROOFS. Transmissions, list timers, watch timers and frame starts (R31, R35, R36, R38, R79 to R88, R105, R114). -/

namespace Sys2Proof.Proofs.Timers

open Sys2Proof Sys2Proof.Machine Host Kept

/-! ### Transmissions and list timers -/

theorem exec_noticeCompletion (s : State) :
    exec .noticeCompletion s = s.take fun s => { s with notices := s.notices.tail } := rfl

theorem exec_throwTransmitStart (s : State) : exec .throwTransmitStart s
    = s.take fun s => if s.throws.isEmpty then s else { s with throwSending := true } := rfl

theorem exec_throwCompletion (s : State) : exec .throwCompletion s
    = s.take fun s => if s.throwSending then { s with throws := s.throws.tail, throwSending := false } else s := rfl

theorem exec_unboundAgeOut (h : Hid) (s : State) : exec (.unboundAgeOut h) s
    = s.take fun s => { s with unbound := s.unbound.filter fun e => !(e.hid == h && e.aged s.now) } := by
  unfold exec
  rfl

theorem exec_overflowExpiry (a : Addr) (s : State) : exec (.overflowExpiry a) s
    = s.take fun s => s.modifySection a (Section.overflowExpires s.now) := by
  unfold exec
  rfl

theorem aged_iff (now : TrackTime) (e : UnboundEntry) : e.aged now = true ↔ Reached now (e.lastHeard + 3000) :=
  reached_iff now _

theorem overflowExpires_of_due {now t : TrackTime} {sec : Section} (hl : sec.lastOverflow = some t)
    (h : Reached now (t + 3000)) : sec.overflowExpires now = { sec with overflow := false, lastOverflow := none } := by
  unfold Section.overflowExpires
  rw [hl]
  exact if_pos ((reached_iff _ _).mpr h)

theorem overflowExpires_of_not_due {now : TrackTime} {sec : Section}
    (h : ∀ t, sec.lastOverflow = some t → ¬ Reached now (t + 3000)) : sec.overflowExpires now = sec := by
  unfold Section.overflowExpires
  cases hl : sec.lastOverflow with
  | none => rfl
  | some t => exact if_neg fun e => h t hl ((reached_iff _ _).mp e)

theorem setSection_self (s : State) (a : Addr) : s.setSection a (s.sectionAt a) = s := by
  have : s.sections.set a (s.sectionAt a) = s.sections := Vector.set_getElem_self ..
  rw [State.setSection, this]

/-- Settles O34: what leaves a queue or a list, and what stands on the lines. -/
theorem transmissionsAndListTimers : Obligations.TransmissionsAndListTimers := by
  intro s hs
  simp only [exec_noticeCompletion, exec_throwTransmitStart, exec_throwCompletion, exec_unboundAgeOut,
    exec_overflowExpiry, take_of_running hs]
  refine ⟨by rw [List.drop_one], fun h => by rw [h]; rfl, fun h => ?starts, fun h => ?sent, fun h => by rw [h]; rfl,
    fun h => ⟨_, rfl, List.filter_sublist, fun e => ?aged⟩, fun a sec t hsec hl hr => ?overflow, fun a h => ?quiet,
    fun h => by rw [State.noticeLine, h]; rfl, fun n rest h => ?notice, fun h => ?idle, fun m rest h1 h2 => ?sends⟩
  case starts =>
    rw [if_neg (by rw [List.isEmpty_iff]; exact h)]
  case sent => rw [if_pos h, List.drop_one]
  case aged =>
    rw [List.mem_filter, Bool.not_eq_true', ← Bool.not_eq_true, Bool.and_eq_true, beq_iff_eq, aged_iff]
  case overflow =>
    rw [State.modifySection, hsec, Option.map_some, overflowExpires_of_due hl hr]
    rfl
  case quiet =>
    have hsame : (s.sectionAt a).map (Section.overflowExpires s.now) = s.sectionAt a := by
      cases hsec : s.sectionAt a with
      | none => rfl
      | some sec => exact congrArg some (overflowExpires_of_not_due fun t ht => h sec t hsec ht)
    rw [State.modifySection, hsame, setSection_self]
  case notice =>
    rw [State.noticeLine, h, ← noticeBytes_eq_layout]
    rfl
  case idle =>
    unfold State.busLine
    rcases h with h | h
    · rw [h]
      rfl
    · rw [h]
      exact ite_self none
  case sends =>
    rw [State.busLine, h1, h2, ← throwBytes_eq_layout]
    rfl

/-! ### Watch timers (R35, R36) -/

theorem exec_watchExpiry (k : Slot) (s : State) : exec (.watchExpiry k) s = s.take fun s => s.watchExpires k := by
  unfold exec
  rfl

/-- A timer that has expired in LIVE. -/
theorem watchExpires_live {s : State} {k : Slot} {t : TrackTime} (hw : s.watchOf k = some t) (ht : Reached s.now t)
    (hl : (s.car k).link = .live) : s.watchExpires k = (s.firstExpiry k).recompute k := by
  unfold State.watchExpires
  rw [if_pos (by rw [hw]; exact (reached_iff _ _).mpr ht), hl]

/-- A timer that has expired in FADE. -/
theorem watchExpires_fade {s : State} {k : Slot} {t : TrackTime} (hw : s.watchOf k = some t) (ht : Reached s.now t)
    (hl : (s.car k).link = .fade) : s.watchExpires k = (s.fadeExpiry k).recompute k := by
  unfold State.watchExpires
  rw [if_pos (by rw [hw]; exact (reached_iff _ _).mpr ht), hl]

theorem watchExpires_of_not_due {s : State} {k : Slot} (h : ∀ t, s.watchOf k = some t → ¬ Reached s.now t) :
    s.watchExpires k = s := by
  unfold State.watchExpires
  refine if_neg ?_
  cases hw : s.watchOf k with
  | none => exact Bool.false_ne_true
  | some t => exact fun e => h t hw ((reached_iff _ _).mp e)

theorem nextTimeout_eq (r : Car) : r.pendingWatch.getD r.watchTimeout = nextTimeout r := by
  unfold nextTimeout
  cases r.pendingWatch <;> rfl

/-- The record of a fading link, its timer restarted (R34). -/
theorem faded_eq (cap : Nat) (armed : Bool) (r : Car) : Car.faded cap armed r = { r with
    fadeCap := cap, link := .fade, armed := armed, watchTimeout := nextTimeout r, pendingWatch := none } := by
  rw [← nextTimeout_eq]
  rfl

theorem faded_again (cap : Nat) {r : Car} (h : r.link = .fade) : Car.faded cap r.armed r = { r with
    fadeCap := cap, watchTimeout := nextTimeout r, pendingWatch := none } := by
  rw [faded_eq, ← h]

/-- Settles O35: the rows of R35 and R36. -/
theorem watchExpiryFadesTheLink : Obligations.WatchExpiryFadesTheLink := by
  intro s k hs r cap restarted
  rw [exec_watchExpiry, take_of_running hs]
  refine ⟨fun h => by rw [watchExpires_of_not_due h], fun t hw ht => ?_⟩
  refine ⟨fun hl ho => ?fades, fun hl ho => ?stopped, fun hl hc => ?falls, fun hl hc => ?spent⟩
  case fades =>
    rw [watchExpires_live hw ht hl, firstExpiry_of_moving s k (Nat.pos_iff_ne_zero.mp ho), faded_eq]
    rfl
  case stopped =>
    have hlost := firstExpiry_of_stopped s k ho
    rw [show (s.car k).output = 0 from ho] at hlost
    rw [watchExpires_live hw ht hl, hlost]
    rfl
  case falls =>
    rw [watchExpires_fade hw ht hl, fadeExpiry_of_left s k hl (Nat.pos_iff_ne_zero.mp hc), faded_again _ hl]
    rfl
  case spent =>
    rw [watchExpires_fade hw ht hl, fadeExpiry_of_spent s k hc]
    rfl

/-! ### Frame starts (R54, R79 to R88) -/

theorem exec_frameStart (s : State) : exec .frameStart s = s.take fun s => if s.frameDue then s.startFrame else s := rfl

theorem frameDue_iff (s : State) : s.frameDue = true ↔ s.rail.power = true ∧ ∃ t, s.rail.nextStart = some t ∧ Reached s.now t := by
  unfold State.frameDue
  rw [Bool.and_eq_true]
  refine and_congr_right fun _ => ?_
  cases s.rail.nextStart with
  | none => exact iff_of_false Bool.false_ne_true fun ⟨_, h, _⟩ => nomatch h
  | some t => exact (reached_iff _ _).trans ⟨fun h => ⟨t, rfl, h⟩, fun ⟨_, h, hr⟩ => by cases h; exact hr⟩

/-- A program frame is begun (R88). -/
def ProgramDue (r : Rail) : Prop :=
  r.burst = .active ∧ ∃ k n, r.burstSlot = some k ∧ r.burstRepeat = some n ∧ r.programSent < n

theorem beginProgram_of_due {r : Rail} {k : Slot} (h : ProgramDue r) (hk : r.burstSlot = some k) :
    r.beginProgram = { r with programSent := r.programSent + 1, padfeed := some (programFrame k) } := by
  obtain ⟨hb, j, n, hj, hn, hlt⟩ := h
  obtain rfl : j = k := Option.some.inj (hj.symm.trans hk)
  unfold Rail.beginProgram
  rw [hb, hj, hn]
  exact if_pos hlt

theorem beginProgram_of_not_due {r : Rail} (h : ¬ ProgramDue r) : r.beginProgram = r := by
  unfold Rail.beginProgram
  split
  · next k n hb hk hn => exact if_neg fun hlt => h ⟨hb, k, n, hk, hn, hlt⟩
  · rfl

/-- A program frame changes PADFEED and its count alone. -/
theorem beginProgram_keeps (r : Rail) :
    r.beginProgram = { r with padfeed := r.beginProgram.padfeed, programSent := r.beginProgram.programSent } := by
  unfold Rail.beginProgram
  split
  · split <;> rfl
  · rfl

theorem slew_eq (t : TrackState) (r : Car) : r.slew t = { r with output := if t.stopped then 0 else stepped r } := by
  unfold Car.slew stepped
  split_ifs <;> rfl

theorem stopped_iff (t : TrackState) : t.stopped = true ↔ Stopped t := by
  cases t <;> simp [TrackState.stopped, Stopped]

theorem railWord_of_stopped {t : TrackState} (h : Stopped t) (r : Car) : r.railWord t = 0xA0#8 := by
  unfold Car.railWord
  rw [if_pos ((stopped_iff t).mpr h)]
  rfl

/-- The word of a car that may move (R57 to R59). -/
theorem railWord_of_racing {t : TrackState} (h : ¬ Stopped t) (r : Car) :
    r.railWord t = carWord (r.output / 8) (decide (r.brakeRequest = true ∧ r.output < 8)) r.armed := by
  have hflag : r.brakeFlag = decide (r.brakeRequest = true ∧ r.output < 8) := by
    unfold Car.brakeFlag Car.speedCode
    have : r.output / 8 = 0 ↔ r.output < 8 := by omega
    rw [Bool.decide_and, Bool.decide_eq_true, decide_eq_decide.mpr this]
  unfold Car.railWord
  rw [if_neg (fun e => h ((stopped_iff t).mp e)), hflag]
  rfl

/-- The rails at a frame start, before the program frame (R81 to R86). -/
def startedRail (s : State) : Rail :=
  { s.rail with
    frameCount := s.rail.frameCount + 1
    raildata := some
      { words := Vector.ofFn fun k : Slot => (s.mapCars (Car.slew s.track)).cars[k].railWord s.track
        status := statusWord s.track (s.rail.frameCount + 1) }
    settleCounter := settleAfter s.track s.rail.settleCounter }

theorem startFrame_eq (s : State) : s.startFrame = { s with
    cars := (s.mapCars (Car.slew s.track)).cars
    rail := { (startedRail s).beginProgram with nextStart := some (after s.now s.rail.frameInterval) } } := rfl

theorem mapCars_car (s : State) (f : Car → Car) (k : Slot) : (s.mapCars f).car k = f (s.car k) := Vector.getElem_ofFn k.isLt

/-- The status word of the next frame (R83). -/
theorem statusWord_next (t : TrackState) (n : BitVec 16) : statusWord t (n + 1) = withParity (byte1 ((match t with
    | .run => 1
    | .caution => 2
    | _ => 0) + 4 * ((n.toNat + 1) % 16))) := by
  have hcount : (n + 1).toNat % 16 = (n.toNat + 1) % 16 := by
    rw [BitVec.toNat_add]
    exact Nat.mod_mod_of_dvd _ (by decide)
  unfold statusWord
  rw [hcount]
  cases t <;> rfl

/-- Settles O36: the slew, the words, the counts and the program frame. -/
theorem frameStartFormsTheFrame : Obligations.FrameStartFormsTheFrame := by
  intro s hs due burst
  rw [exec_frameStart, take_of_running hs]
  refine ⟨fun h => by rw [if_neg fun e => h ((frameDue_iff s).mp e)], fun h => ?_⟩
  rw [if_pos ((frameDue_iff s).mpr h), startFrame_eq]
  have hkeeps := beginProgram_keeps (startedRail s)
  have hcar (k : Slot) : (s.mapCars (Car.slew s.track)).car k = (s.car k).slew s.track := mapCars_car s _ k
  refine ⟨_, _, rfl, (congrArg Rail.raildata hkeeps).trans rfl, fun k => (hcar k).trans (slew_eq s.track (s.car k)),
    fun k ht => ?blank, fun k ht => ?word, statusWord_next s.track s.rail.frameCount, fun hb k hk => ?programmed, fun hb => ?quiet, ?frame⟩
  case blank => exact (Vector.getElem_ofFn k.isLt).trans (railWord_of_stopped ht _)
  case word => exact (Vector.getElem_ofFn k.isLt).trans (railWord_of_racing ht _)
  case programmed =>
    have hrail := beginProgram_of_due (r := startedRail s) hb hk
    exact ⟨congrArg Rail.padfeed hrail, congrArg Rail.programSent hrail⟩
  case quiet =>
    have hrail := beginProgram_of_not_due (r := startedRail s) hb
    have hfeed := congrArg Rail.padfeed hrail
    have hsent := congrArg Rail.programSent hrail
    exact ⟨hfeed, hsent⟩
  case frame =>
    rw [hkeeps]
    rfl

end Sys2Proof.Proofs.Timers
end

section
/-! PROOFS. The frames and records by their layouts, and their readings (R91, R172, R194 to R197, R200). -/

namespace Sys2Proof.Proofs.Frames

open Sys2Proof Sys2Proof.Machine Host

/-! ### Bytes and CRC-8 -/

theorem word4_extract (v : BitVec 32) :
    word4 (v.extractLsb' 24 8) (v.extractLsb' 16 8) (v.extractLsb' 8 8) (v.extractLsb' 0 8) = v := by
  refine BitVec.eq_of_getLsbD_eq fun i hi => ?_
  unfold word4
  simp only [BitVec.getLsbD_append, BitVec.getLsbD_extractLsb']
  interval_cases i <;> simp

theorem crcShift_eq (r : Byte) : crcShift r = if r.getLsbD 7 then (r <<< 1) ^^^ 0x07 else r <<< 1 := by
  unfold crcShift
  rw [BitVec.msb_eq_getLsbD_last]
  rfl

theorem crc8_concat (l : List Byte) (b : Byte) : crc8 (l ++ [b]) = crcByte (crc8 l) b := by
  unfold crc8
  rw [List.foldl_append]
  rfl

theorem toNat_byte1 {n : Nat} (h : n < 256) : (byte1 n).toNat = n := Nat.mod_eq_of_lt h

/-! ### Handset frames (R195) -/

/-- The buttons byte carries SEQ in its low half and each button in its bit. -/
theorem buttons_read {seq : Nat} (h : seq < 16) (lane brake bind wake : Bool) :
    let n := seq + 16 * lane.toNat + 32 * brake.toNat + 64 * bind.toNat + 128 * wake.toNat
    (byte1 n).toNat % 16 = seq ∧ (byte1 n).getLsbD 4 = lane ∧ (byte1 n).getLsbD 5 = brake ∧ (byte1 n).getLsbD 6 = bind
      ∧ (byte1 n).getLsbD 7 = wake := by
  have key : ∀ (seq : Fin 16) (lane brake bind wake : Bool),
      (byte1 (seq.val + 16 * lane.toNat + 32 * brake.toNat + 64 * bind.toNat + 128 * wake.toNat)).toNat % 16 = seq.val
      ∧ (byte1 (seq.val + 16 * lane.toNat + 32 * brake.toNat + 64 * bind.toNat + 128 * wake.toNat)).getLsbD 4 = lane
      ∧ (byte1 (seq.val + 16 * lane.toNat + 32 * brake.toNat + 64 * bind.toNat + 128 * wake.toNat)).getLsbD 5 = brake
      ∧ (byte1 (seq.val + 16 * lane.toNat + 32 * brake.toNat + 64 * bind.toNat + 128 * wake.toNat)).getLsbD 6 = bind
      ∧ (byte1 (seq.val + 16 * lane.toNat + 32 * brake.toNat + 64 * bind.toNat + 128 * wake.toNat)).getLsbD 7 = wake := by
    decide +kernel
  exact key ⟨seq, h⟩ lane brake bind wake

/-- A handset frame whose fields fit, byte by byte. -/
theorem handsetBytes_eq {f : HandsetFrame} (h : f.seq < 16) : handsetBytes f = 0xA5 ::
    ((0x07 :: bytes4 f.hid ++ [byte1 (f.seq + 16 * f.lane.toNat + 32 * f.brake.toNat + 64 * f.bind.toNat
      + 128 * f.wake.toNat), byte1 f.thr, byte1 f.batt])
    ++ [crc8 (0x07 :: bytes4 f.hid ++ [byte1 (f.seq + 16 * f.lane.toNat + 32 * f.brake.toNat + 64 * f.bind.toNat
      + 128 * f.wake.toNat), byte1 f.thr, byte1 f.batt])]) := by
  unfold handsetBytes
  rw [Nat.mod_eq_of_lt h]
  rfl

theorem parseHandset_sealed (len h3 h2 h1 h0 sb thr batt : Byte) :
    parseHandset ([len, h3, h2, h1, h0, sb, thr, batt] ++ [crc8 [len, h3, h2, h1, h0, sb, thr, batt]]) = some
      { hid := word4 h3 h2 h1 h0, seq := sb.toNat % 16, lane := sb.getLsbD 4, brake := sb.getLsbD 5
        bind := sb.getLsbD 6, wake := sb.getLsbD 7, thr := thr.toNat, batt := batt.toNat % 8 } := if_pos rfl

/-- A frame whose CRC-8 is another is not read (R21). -/
theorem parseHandset_of_crc {l : List Byte} {c : Byte} (h : c ≠ crc8 l) : parseHandset (l ++ [c]) = none := by
  unfold parseHandset
  split
  · next len h3 h2 h1 h0 sb thr batt crc e =>
    have hl : l ++ [c] = [len, h3, h2, h1, h0, sb, thr, batt] ++ [crc] := e
    obtain ⟨rfl, hc⟩ := List.append_inj' hl rfl
    obtain rfl : c = crc := List.head_eq_of_cons_eq hc
    exact if_neg fun e => h e.symm
  · rfl

theorem parseHandset_read {f : HandsetFrame} (hs : f.seq < 16) (ht : f.thr < 256) (hb : f.batt < 8) :
    parseHandset ((handsetBytes f).drop 1) = some f := by
  obtain ⟨h0, h4, h5, h6, h7⟩ := buttons_read hs f.lane f.brake f.bind f.wake
  rw [handsetBytes_eq hs]
  refine (parseHandset_sealed _ _ _ _ _ _ _ _).trans ?_
  rw [h0, h4, h5, h6, h7, word4_extract, toNat_byte1 ht, toNat_byte1 (show f.batt < 256 by omega), Nat.mod_eq_of_lt hb]

/-! ### Frames on the bus (R91, R196, R197) -/

/-- What the bytes before the CRC-8 say (R91). -/
def readBody (body : List Byte) : BusFrame :=
  match body with
  | src :: dst :: kind :: payload =>
    match addrOfNat (src.toNat % 16) with
    | none => .bad
    | some a =>
      if kind.toNat < 1 ∨ 4 < kind.toNat then .bad
      else
        match parsePayload kind.toNat payload with
        | none => .bad
        | some m => if dst.toNat % 16 = 0 then .message a m else .elsewhere
  | _ => .bad

theorem parseBusFrame_of_size {bytes : List Byte} (h : bytes.length < 4 ∨ 10 < bytes.length) : parseBusFrame bytes = .bad :=
  if_pos h

theorem parseBusFrame_of_crc {body : List Byte} {c : Byte} (h : c ≠ crc8 body) : parseBusFrame (body ++ [c]) = .bad := by
  unfold parseBusFrame
  rw [List.dropLast_concat, List.getLastD_concat]
  split_ifs with h1 h2
  · rfl
  · rfl
  · exact absurd (not_not.mp h2).symm h

theorem parseBusFrame_sealed {body : List Byte} (h3 : 3 ≤ body.length) (h9 : body.length ≤ 9) :
    parseBusFrame (body ++ [crc8 body]) = readBody body := by
  have hlen : ¬ ((body ++ [crc8 body]).length < 4 ∨ 10 < (body ++ [crc8 body]).length) := by
    rw [List.length_append, List.length_singleton]
    omega
  unfold parseBusFrame
  rw [if_neg hlen, List.dropLast_concat, List.getLastD_concat, if_neg (not_not.mpr rfl)]
  unfold readBody
  rfl

theorem slotOfByte_unreadCode (c : Option Slot) : slotOfByte (unreadCode c) = c := by
  cases c with
  | none => rfl
  | some k => exact slotOfByte_slotCode k

theorem source_read (a : Addr) : addrOfNat ((addrCode a).toNat % 16) = some a := by
  revert a
  decide

/-- A message is its kind byte and a payload of at most three bytes, from which it is read back where its age fits a byte
and only a pad with one car names a car. -/
theorem messageBytes_read (m : NodeMessage) (hage : ∀ x l c age, m = .sense x l c age → age < 256)
    (hpad : ∀ o id, m = .pad o id → o ≠ .one → id = none) :
    ∃ kind payload, messageBytes m = kind :: payload ∧ payload.length ≤ 3 ∧ ¬ (kind.toNat < 1 ∨ 4 < kind.toNat)
      ∧ parsePayload kind.toNat payload = some m := by
  cases m with
  | hello kind => cases kind <;> exact ⟨_, _, rfl, by decide, by decide, rfl⟩
  | sense x l c age =>
    refine ⟨_, _, rfl, le_rfl, by decide, ?_⟩
    have hbits : ∀ (x : Sensor) (l : Lane), let b := byte1 ((if x = .exit then 1 else 0) + (if l = .b then 2 else 0))
        (if b.getLsbD 0 then Sensor.exit else .entry) = x ∧ (if b.getLsbD 1 then Lane.b else .a) = l := by
      intro x l
      cases x <;> cases l <;> exact ⟨rfl, rfl⟩
    obtain ⟨hx, hl⟩ := hbits x l
    refine (show _ = some (NodeMessage.sense _ _ _ _) from rfl).trans ?_
    rw [hx, hl, slotOfByte_unreadCode, toNat_byte1 (hage x l c age rfl)]
  | pad o id =>
    cases o with
    | one => exact ⟨_, _, rfl, show 2 ≤ 3 by decide, by decide, congrArg (fun c => some (NodeMessage.pad .one c)) (slotOfByte_unreadCode id)⟩
    | empty =>
      obtain rfl := hpad .empty id rfl (by decide)
      exact ⟨_, _, rfl, by decide, by decide, rfl⟩
    | many =>
      obtain rfl := hpad .many id rfl (by decide)
      exact ⟨_, _, rfl, by decide, by decide, rfl⟩
  | fault kind => cases kind <;> exact ⟨_, _, rfl, by decide, by decide, rfl⟩

theorem parseBusFrame_nodeFrameBytes (a : Addr) (m : NodeMessage)
    (hage : ∀ x l c age, m = .sense x l c age → age < 256) (hpad : ∀ o id, m = .pad o id → o ≠ .one → id = none) :
    parseBusFrame (nodeFrameBytes a m) = .message a m := by
  obtain ⟨kind, payload, hm, hlen, hkind, hread⟩ := messageBytes_read m hage hpad
  unfold nodeFrameBytes
  rw [hm, parseBusFrame_sealed (by simp) (by simp only [List.length_cons]; omega)]
  unfold readBody
  simp only [source_read, if_neg hkind, hread]
  exact if_pos rfl

/-! ### Binding records (R172, R200) -/

theorem readRecord_of_crc {k : Slot} {sl b3 b2 b1 b0 chk : Byte} (h : chk ≠ crc8 [sl, b3, b2, b1, b0]) :
    readRecord k (.bytes sl b3 b2 b1 b0 chk) = none := if_neg fun e => h e.1.symm

theorem readRecord_of_slot {k : Slot} {sl b3 b2 b1 b0 chk : Byte} (h : sl ≠ slotCode k) :
    readRecord k (.bytes sl b3 b2 b1 b0 chk) = none := if_neg fun e => h e.2

theorem validHid_iff (h : Hid) : validHid h = true ↔ h ≠ 0 ∧ h ≠ 0xFFFFFFFF#32 := by
  simp [validHid]

theorem readRecord_of_zero {k : Slot} {sl b3 b2 b1 b0 chk : Byte} (h : word4 b3 b2 b1 b0 = 0) :
    readRecord k (.bytes sl b3 b2 b1 b0 chk) = none := by
  unfold readRecord
  dsimp only
  rw [h]
  exact ite_self none

theorem readRecord_good {k : Slot} {b3 b2 b1 b0 : Byte} (h : word4 b3 b2 b1 b0 ≠ 0) :
    readRecord k (.bytes (slotCode k) b3 b2 b1 b0 (crc8 [slotCode k, b3, b2, b1, b0]))
      = some (if word4 b3 b2 b1 b0 = 0xFFFFFFFF#32 then none else some (word4 b3 b2 b1 b0)) := by
  refine (if_pos ⟨rfl, rfl⟩).trans ?_
  split
  · next he => exact congrArg some (if_pos he).symm
  · next he =>
    rw [if_pos ((validHid_iff _).mpr ⟨h, he⟩)]
    exact congrArg some (if_neg he).symm

theorem readRecord_bindingRecord {k : Slot} {b : Option Hid} (h : ∀ x, b = some x → x ≠ 0 ∧ x ≠ 0xFFFFFFFF#32) :
    readRecord k (bindingRecord k b) = some b := by
  unfold bindingRecord
  refine (readRecord_good ?nonzero).trans ?value
  all_goals rw [word4_extract]
  all_goals cases b with
    | none => decide
    | some x => ?_
  case nonzero => exact (h x rfl).1
  case value => exact congrArg some (if_neg (h x rfl).2)

/-! ### Frames agree with their readings -/

/-- Settles O52: each layout is the model's frame by its parts, and each reading undoes its writing. -/
theorem framesAndRecordsReadBack : Obligations.FramesAndRecordsReadBack := by
  refine ⟨⟨rfl, fun l b => ?crc⟩, fun f hs ht hb => ⟨handsetBytes_eq hs, parseHandset_read hs ht hb⟩,
    fun a m hage hpad => ⟨?_, parseBusFrame_nodeFrameBytes a m hage hpad⟩, fun k b hb => ⟨?_, readRecord_bindingRecord hb, rfl,
      fun slot h3 h2 h1 h0 check => ⟨readRecord_of_crc, readRecord_of_slot, readRecord_of_zero, ?_⟩⟩⟩
  case crc =>
    have hshift : (fun r : Byte => if r.getLsbD 7 then (r <<< 1) ^^^ 0x07 else r <<< 1) = crcShift :=
      (funext crcShift_eq).symm
    dsimp only
    rw [hshift, crc8_concat]
    rfl
  · rcases m with kind | ⟨x, l, c, age⟩ | ⟨o, id⟩ | kind
    · rfl
    · cases x <;> cases l <;> cases c <;> rfl
    · by_cases ho : o = .one
      · subst ho
        cases id <;> rfl
      · obtain rfl := hpad o id rfl ho
        cases o <;> rfl
    · rfl
  · cases b <;> rfl
  · rintro rfl rfl hne
    exact readRecord_good hne

end Sys2Proof.Proofs.Frames
end

section
/-! PROOFS. The Handset Receiver: characters, and the frames of bound and unbound handsets (R20 to R30, R165, R166). -/

namespace Sys2Proof.Proofs.Handsets

open Sys2Proof Sys2Proof.Machine Host Kept Arguments TrackStates Frames

/-! ### The receiver (R20, R21) -/

theorem exec_handsetCharacter (c : Byte) (stop : Bool) (s : State) :
    exec (.handsetCharacter c stop) s = s.take fun s => s.receive c stop := by unfold exec; rfl

theorem exec_handsetFrame (l : List Byte) (s : State) : exec (.handsetFrame l) s = s.take fun s => s.receiveAll l := by
  unfold exec; rfl

theorem exec_handsetContinuityTimeout (s : State) : exec .handsetContinuityTimeout s = execHandsetContinuityTimeout s := by
  unfold exec; rfl

theorem receive_hunt {s : State} (h : s.receiver = .hunt) (c : Byte) (stop : Bool) :
    s.receive c stop = if c = 0xA5 ∧ stop = true then { s with receiver := .inFrame [] } else s := by
  unfold State.receive
  rw [h]
  cases stop <;> simp [handsetStart]

theorem receive_stopless {s : State} {l : List Byte} (h : s.receiver = .inFrame l) (c : Byte) :
    s.receive c false = s.discardFrame := by
  unfold State.receive
  rw [h]
  rfl

theorem receive_length {s : State} (h : s.receiver = .inFrame []) (c : Byte) :
    s.receive c true = if c = 0x07 then { s with receiver := .inFrame [c] } else s.discardFrame := by
  unfold State.receive
  rw [h]
  rfl

theorem receive_within {s : State} {l : List Byte} (h : s.receiver = .inFrame l) (h0 : 0 < l.length) (h8 : l.length < 8)
    (c : Byte) : s.receive c true = { s with receiver := .inFrame (l ++ [c]) } := by
  unfold State.receive
  rw [h]
  cases l with
  | nil => exact absurd h0 (by decide)
  | cons x xs => exact if_pos h8

theorem receive_last {s : State} {l : List Byte} (h : s.receiver = .inFrame l) (h8 : l.length = 8) (c : Byte) :
    s.receive c true = s.frameArrives (l ++ [c]) := by
  unfold State.receive
  rw [h]
  cases l with
  | nil => exact absurd h8 (by decide)
  | cons x xs => exact if_neg (show ¬ (x :: xs).length < 8 by omega)

theorem frameArrives_receiver (s : State) (r : Receiver) (l : List Byte) :
    ({ s with receiver := r } : State).frameArrives l = s.frameArrives l := by
  unfold State.frameArrives
  cases parseHandset l <;> rfl

theorem frameArrives_of_unread {s : State} {l : List Byte} (h : parseHandset l = none) : s.frameArrives l = s.discardFrame := by
  unfold State.frameArrives
  rw [h]

theorem frameArrives_of_invalid {s : State} {l : List Byte} {f : HandsetFrame} (h : parseHandset l = some f)
    (hid : f.hid = 0 ∨ f.hid = 0xFFFFFFFF#32) : s.frameArrives l = s.discardFrame := by
  unfold State.frameArrives
  rw [h]
  refine if_neg fun hv => ?_
  obtain ⟨h0, hF⟩ := (validHid_iff _).mp hv
  exact hid.elim h0 hF

theorem frameArrives_read {s : State} {l : List Byte} {f : HandsetFrame} (hs : s.receiver = .hunt)
    (h : parseHandset l = some f) (hid : f.hid ≠ 0 ∧ f.hid ≠ 0xFFFFFFFF#32) : s.frameArrives l = s.handleFrame f := by
  have hhunt : ({ s with receiver := .hunt } : State) = s := by rw [← hs]
  unfold State.frameArrives
  rw [h, hhunt]
  exact if_pos ((validHid_iff _).mpr hid)

theorem foldl_receive {s : State} {l : List Byte} (m : List Byte) (h : s.receiver = .inFrame l) (h0 : 0 < l.length)
    (h8 : l.length + m.length ≤ 8) : m.foldl (fun s b => s.receive b true) s = { s with receiver := .inFrame (l ++ m) } := by
  induction m generalizing s l with
  | nil =>
    rw [List.append_nil, ← h]
    rfl
  | cons c m ih =>
    rw [List.length_cons] at h8
    rw [List.foldl_cons, receive_within h h0 (by omega), ih rfl (by simp) (by simp; omega), List.append_assoc]
    rfl

/-- The ten characters of a frame, each with its stop bit, bring the nine after the start byte to the checks. -/
theorem receiveAll_frame {s : State} (hs : s.receiver = .hunt) (h3 h2 h1 h0 b t v c : Byte) :
    s.receiveAll [0xA5, 0x07, h3, h2, h1, h0, b, t, v, c] = s.frameArrives [0x07, h3, h2, h1, h0, b, t, v, c] := by
  have hstart : s.receive 0xA5 true = { s with receiver := .inFrame [] } := (receive_hunt hs _ _).trans (if_pos ⟨rfl, rfl⟩)
  have hlength : ({ s with receiver := .inFrame [] } : State).receive 0x07 true = { s with receiver := .inFrame [0x07] } :=
    (receive_length rfl _).trans (if_pos rfl)
  have hsplit : [0xA5, 0x07, h3, h2, h1, h0, b, t, v, c] = 0xA5 :: 0x07 :: ([h3, h2, h1, h0, b, t, v] ++ [c]) := rfl
  unfold State.receiveAll
  rw [hsplit, List.foldl_cons, hstart, List.foldl_cons, hlength, List.foldl_append,
    foldl_receive [h3, h2, h1, h0, b, t, v] rfl (by decide) le_rfl, List.foldl_cons, List.foldl_nil]
  exact (receive_last rfl rfl c).trans (frameArrives_receiver s _ _)

theorem receiveAll_handsetBytes {s : State} (hs : s.receiver = .hunt) (f : HandsetFrame) :
    s.receiveAll (handsetBytes f) = s.frameArrives ((handsetBytes f).drop 1) := receiveAll_frame hs _ _ _ _ _ _ _ _

/-- Whatever the fields, the frame is read, with its identity. -/
theorem parseHandset_hid (f : HandsetFrame) : ∃ g, parseHandset ((handsetBytes f).drop 1) = some g ∧ g.hid = f.hid :=
  ⟨_, parseHandset_sealed _ _ _ _ _ _ _ _, word4_extract _⟩

/-- Settles O33: the receiver's branches, one by one. -/
theorem receiverCollectsAndDiscards : Obligations.ReceiverCollectsAndDiscards := by
  intro s hr discarded
  have hchar : ∀ c stop, exec (.handsetCharacter c stop) s = .next (s.receive c stop) := fun c stop =>
    (exec_handsetCharacter c stop s).trans (take_of_running hr)
  have hframe : ∀ l, exec (.handsetFrame l) s = .next (s.receiveAll l) := fun l =>
    (exec_handsetFrame l s).trans (take_of_running hr)
  have hgap : exec .handsetContinuityTimeout s
      = .next (match s.receiver with
        | .hunt => s
        | .inFrame _ => s.discardFrame) :=
    (exec_handsetContinuityTimeout s).trans (take_of_running hr)
  have hdiscard : Outcome.next s.discardFrame = discarded := by
    unfold State.discardFrame
    rw [bump_eq]
  refine ⟨fun h c stop => ?waiting, fun h => ?quiet, fun l h => ⟨?gap, fun c => ?stopless, ?length, fun h0 h8 c => ?within,
    fun h8 c hc => ?crc, fun c f hf => ?last⟩, fun h h3 h2 h1 h0 b t v c hc => ?frameCrc, fun h f hf => ?invalid⟩
  case waiting =>
    rw [hchar, receive_hunt h]
    exact apply_ite Outcome.next _ _ _
  case quiet => rw [hgap, h]
  case gap => rw [hgap, h, ← hdiscard]
  case stopless => rw [hchar, receive_stopless h, hdiscard]
  case length =>
    rintro rfl c
    rw [hchar, receive_length h, apply_ite Outcome.next, hdiscard]
  case within => rw [hchar, receive_within h h0 h8]
  case crc => rw [hchar, receive_last h h8, frameArrives_of_unread (parseHandset_of_crc hc), hdiscard]
  case last =>
    have h8 : l.length = 8 := by
      have := congrArg List.length hf
      rw [List.length_append] at this
      exact Nat.succ.inj this
    have hwhole : exec (.handsetFrame (handsetBytes f)) { s with receiver := .hunt }
        = .next (s.frameArrives ((handsetBytes f).drop 1)) := by
      rw [exec_handsetFrame, take_of_running (s := { s with receiver := .hunt }) hr, receiveAll_handsetBytes rfl,
          frameArrives_receiver]
    rw [hchar, receive_last h h8, hf, hwhole]
  case frameCrc =>
    rw [hframe, receiveAll_frame h, ← hdiscard]
    exact congrArg Outcome.next (frameArrives_of_unread (parseHandset_of_crc (l := [0x07, h3, h2, h1, h0, b, t, v]) hc))
  case invalid =>
    obtain ⟨g, hg, hid⟩ := parseHandset_hid f
    rw [hframe, receiveAll_handsetBytes h, frameArrives_of_invalid hg (hid ▸ hf), hdiscard]

/-! ### A frame that passed the checks (R22) -/

theorem exec_handsetBytes {s : State} {f : HandsetFrame} (hr : Running s) (hs : s.receiver = .hunt) (hf : FrameFits f) :
    exec (.handsetFrame (handsetBytes f)) s = .next (s.handleFrame f) := by
  rw [exec_handsetFrame, take_of_running hr, receiveAll_handsetBytes hs,
    frameArrives_read hs (parseHandset_read hf.seq hf.thr hf.batt) hf.hid]

theorem ownerOf_eq {s : State} {h : Hid} {owner : Option Slot} (ho : ∀ j, (s.car j).binding = some h ↔ owner = some j) :
    s.ownerOf h = owner := by
  cases hfound : s.ownerOf h with
  | some k => exact ((ho k).mp (ownerOf_some hfound)).symm
  | none =>
    cases owner with
    | none => rfl
    | some k => exact absurd ((ho k).mpr rfl) (ownerOf_none hfound k)

theorem handleFrame_repeated {s : State} {k : Slot} {f : HandsetFrame} (ho : s.ownerOf f.hid = some k)
    (hq : (s.car k).lastSeq = some f.seq) :
    s.handleFrame f = { s with handsetDuplicates := bump s.handsetDuplicates } := by
  unfold State.handleFrame
  rw [ho]
  exact if_pos hq

theorem handleFrame_new {s : State} {k : Slot} {f : HandsetFrame} (ho : s.ownerOf f.hid = some k)
    (hq : (s.car k).lastSeq ≠ some f.seq) : s.handleFrame f = s.acceptFrame k f := by
  unfold State.handleFrame
  rw [ho]
  exact if_neg hq

theorem handleFrame_unbound {s : State} {f : HandsetFrame} (ho : s.ownerOf f.hid = none) :
    s.handleFrame f = if f.bind then (heard s f).bindOffer f.hid none else heard s f := by
  unfold State.handleFrame
  rw [ho]
  have hlist : unboundAfter s.unbound (heardEntry s f)
      = (heardEntry s f :: s.unbound.filter fun e => e.hid ≠ f.hid).take 6 := by
    unfold unboundAfter
    exact congrArg (fun l => (heardEntry s f :: l).take 6) (List.filter_congr fun e _ => by simp [heardEntry, bne, beq_eq_decide])
  have hheard : heard s f = { s with unbound := unboundAfter s.unbound (heardEntry s f) } := by rw [hlist]; rfl
  rw [hheard]
  rfl

/-! ### An accepted frame (R24 to R26) -/

theorem raiseIf_link (s : State) (b : Bool) :
    s.raiseIf b .link = { s with flags := { s.flags with link := s.flags.link || b } } := by
  cases b with
  | false => rw [Bool.or_false]; rfl
  | true => rw [Bool.or_true]; rfl

theorem raiseIf_batt (s : State) (b : Bool) :
    s.raiseIf b .batt = { s with flags := { s.flags with batt := s.flags.batt || b } } := by
  cases b with
  | false => rw [Bool.or_false]; rfl
  | true => rw [Bool.or_true]; rfl

theorem returns_eq (l : LinkState) : l.returns = decide (l = .silent ∨ l = .fade ∨ l = .lost) := by
  cases l <;> rfl

theorem noteAfter_eq (batt : Nat) (note : Bool) :
    noteAfter batt note = if batt ≤ 1 then true else if batt = 2 then note else false := by
  unfold noteAfter
  obtain h | rfl | h : batt ≤ 1 ∨ batt = 2 ∨ 3 ≤ batt := by omega
  · rw [if_pos h, if_pos h]
  · rfl
  · rw [if_neg (by omega), if_pos h, if_neg (by omega), if_neg (by omega)]

theorem note_set (batt : Nat) (note : Bool) : (!note && noteAfter batt note) = decide (note = false ∧ batt ≤ 1) := by
  rw [noteAfter_eq]
  cases note
  · simp
  · rfl

theorem armAfter_eq (r : Car) (lane : Bool) : r.armAfter lane =
    if r.consoleDrive ≠ none then r.armed else if r.laneMode = .hold then lane
    else if lane = true ∧ r.inputs.lane = false then !r.armed else r.armed := by
  unfold Car.armAfter
  cases r.consoleDrive with
  | some n => rfl
  | none =>
    cases r.laneMode with
    | hold => rfl
    | latch => cases lane <;> cases r.inputs.lane <;> rfl

theorem accept_applied (r : Car) (f : HandsetFrame) : (Car.accept f r).applyPendingWatch = acceptedRecord r f := by
  unfold acceptedRecord
  rw [← armAfter_eq, ← noteAfter_eq]
  unfold Car.applyPendingWatch Car.accept nextTimeout
  cases r.pendingWatch <;> rfl

/-- The record, the watch timer, the flags and the Drive Unit's part of an accepted frame. -/
theorem accept_recompute (s : State) (k : Slot) (f : HandsetFrame) :
    (((((s.modifyCar k (Car.accept f)).restartWatch k).raiseIf (s.car k).link.returns .link).raiseIf
      (!(s.car k).lowBattery && noteAfter f.batt (s.car k).lowBattery) .batt).recompute k) = accepted s k f := by
  rw [restartWatch_modifyCar, raiseIf_link, raiseIf_batt, returns_eq, note_set, accept_applied]
  unfold State.recompute State.modifyCar State.setCar State.car accepted
  simp only [Fin.getElem_fin, Vector.getElem_set_self, Vector.set_set]
  rfl

theorem acceptFrame_eq (s : State) (k : Slot) (f : HandsetFrame) :
    s.acceptFrame k f =
      let u := if f.bind then (accepted s k f).bindOffer f.hid (some k) else accepted s k f
      if f.wake = true ∧ u.track = .standby ∧ u.options.handsetWake = true then u.wakeRequest k else u := by
  rw [← accept_recompute]
  rfl

/-- A wake request is made where the track sleeps, handset wake is enabled and the line is deasserted, and only there. -/
theorem wake_skipped {s : State} {k : Slot} {w : Bool}
    (h : ¬ (w = true ∧ s.track = .standby ∧ s.options.handsetWake = true ∧ s.railflt = false)) :
    (if w = true ∧ s.track = .standby ∧ s.options.handsetWake = true then s.wakeRequest k else s) = s := by
  split_ifs with hw
  · obtain ⟨hw, hrest⟩ := hw
    exact if_neg fun hwake => h ⟨hw, hwake⟩
  · rfl

theorem bindOffer_of_other {s : State} (h1 : s.pairing.state ≠ .awaitHandset) (h2 : s.pairing.state ≠ .confirm) (h : Hid)
    (owner : Option Slot) : s.bindOffer h owner = s := by
  unfold State.bindOffer
  split
  · exact absurd ‹_› h1
  · exact absurd ‹_› h2
  · rfl

theorem accepted_quiet {s : State} {k : Slot} {f : HandsetFrame} (h : StandbyQuiet s) : StandbyQuiet (accepted s k f) := h

theorem wakeUp_handset {s : State} {k : Slot} (hq : StandbyQuiet s) (ht : s.track = .standby) :
    s.wakeUp (.handset k) = { s with
      track := .settle, lastWake := some (.handset k), railFaultNote := false
      rail := settledRail s.rail s.now
      flags := { s.flags with state := true }
      cars := Vector.ofFn fun j : Slot => { s.cars[j] with target := 0, brakeRequest := true, output := 0 } } := by
  have hcars : (Vector.ofFn fun j : Slot => carFollows .settle s.cars[j])
      = Vector.ofFn fun j : Slot => { s.cars[j] with target := 0, brakeRequest := true, output := 0 } :=
    congrArg Vector.ofFn (funext fun j => carFollows_stopped .settle _ rfl)
  rw [State.wakeUp, changeTrack_settle_of_quiet hq ht, ← hcars]
  rfl

/-- Settles O30: the repeated frame is counted; any other is `accepted`, and then offered to no pairing and, where it wakes,
followed by the entry to SETTLE. -/
theorem acceptedAndDuplicateFrames : Obligations.AcceptedAndDuplicateFrames := by
  intro s k f hr hd hs hf hk wakes
  have ho : s.ownerOf f.hid = some k := ownerOf_eq fun j =>
    ⟨fun hj => congrArg some (hd.bindings k j f.hid hk hj), fun hj => Option.some.inj hj ▸ hk⟩
  rw [exec_handsetBytes hr hs hf]
  refine ⟨fun hq => ?repeated, fun hq hb hw => ?plain, fun hq hb hw quiet => ?wake⟩
  case repeated => rw [handleFrame_repeated ho hq, bump_eq]
  case plain =>
    rw [handleFrame_new ho hq, acceptFrame_eq, hb]
    exact congrArg Outcome.next (wake_skipped (s := accepted s k f) hw)
  case wake =>
    obtain ⟨hwake, ht, hopt, hline⟩ := hw
    have hoffer : (if f.bind then (accepted s k f).bindOffer f.hid (some k) else accepted s k f) = accepted s k f := by
      split_ifs with hbind
      · have hidle : (accepted s k f).pairing.state = .idle := hb hbind
        exact bindOffer_of_other (by rw [hidle]; decide) (by rw [hidle]; decide) _ _
      · rfl
    have hrequest : (accepted s k f).wakeRequest k = (accepted s k f).wakeUp (.handset k) := if_pos ⟨ht, hopt, hline⟩
    rw [handleFrame_new ho hq, acceptFrame_eq, hoffer]
    refine congrArg Outcome.next ((if_pos ⟨hwake, ht, hopt⟩).trans (hrequest.trans ?_))
    exact wakeUp_handset (accepted_quiet quiet) ht

/-! ### BIND offers (R28, R165, R166) -/

theorem eligible_iff (s : State) (owner : Option Slot) :
    s.eligible owner = true ↔ owner = none ∨ owner = s.pairing.slot := by
  cases owner with
  | none => exact ⟨fun _ => .inl rfl, fun _ => rfl⟩
  | some j => exact ⟨fun h => .inr (of_decide_eq_true h).symm, fun h => decide_eq_true (h.resolve_left nofun).symm⟩

theorem bindOffer_candidate {s : State} {h : Hid} {owner : Option Slot} (hp : s.pairing.state = .awaitHandset)
    (he : s.eligible owner = true) :
    s.bindOffer h owner = { s with
      pairing := { s.pairing with
        state := .confirm, candidate := some h, confirmExpiry := some (s.now + BitVec.ofNat 32 s.params.confirm) }
      notices := if s.notices.length < 4 then s.notices ++ [{ hid := h, kind := .candidate }] else s.notices } := by
  unfold State.bindOffer
  rw [hp]
  exact (if_pos he).trans (notify_eq _ _ _)

theorem bindOffer_again {s : State} {h : Hid} {owner : Option Slot} (hp : s.pairing.state = .confirm)
    (hc : s.pairing.candidate = some h) : s.bindOffer h owner = s := by
  unfold State.bindOffer
  rw [hp]
  exact if_pos hc

theorem bindOffer_ignored {s : State} {h : Hid} {owner : Option Slot}
    (hp : s.pairing.state = .awaitHandset ∨ (s.pairing.state = .confirm ∧ s.pairing.candidate ≠ some h))
    (he : ¬ s.eligible owner = true) :
    s.bindOffer h owner = { s with pairing := { s.pairing with ignored := min 65535 (s.pairing.ignored + 1) } } := by
  rw [← bump_eq]
  unfold State.bindOffer
  obtain hp | ⟨hp, hc⟩ := hp
  · rw [hp]
    exact if_neg he
  · rw [hp]
    exact (if_neg hc).trans (if_neg he)

/-- Two notices enter a queue of four as far as there is room. -/
theorem two_notices (l : List Notice) (a b : Notice) :
    (let m := if l.length < 4 then l ++ [a] else l
     if m.length < 4 then m ++ [b] else m) = (l ++ [a, b]).take (max 4 l.length) := by
  dsimp only
  by_cases h4 : l.length < 4
  · rw [if_pos h4, max_eq_left h4.le, List.length_append, List.length_singleton]
    by_cases h3 : l.length + 1 < 4
    · rw [if_pos h3, List.append_assoc, List.take_of_length_le (by simp; omega)]
      rfl
    · have hlen : (l ++ [a]).length = 4 := by simp; omega
      have hsplit : l ++ [a, b] = (l ++ [a]) ++ [b] := by simp
      rw [if_neg h3, hsplit, ← hlen, List.take_left]
  · rw [if_neg h4, if_neg h4, max_eq_right (not_lt.mp h4), List.take_left]

/-- An ending that stops no burst and refuses no candidate. -/
theorem endPairing_silent {s : State} {o : PairingOutcome} (hp : s.pairing.state ≠ .programming)
    (ho : o.refusesCandidate = false) (hb : o ≠ .bound) :
    s.endPairing o = { s with
      pairing := Pairing.idle
      result := { slot := s.pairing.slot, hid := s.pairing.candidate, outcome := o, attempts := s.pairing.attempt
                  ignored := s.pairing.ignored, store := .none }
      flags := { s.flags with pairing := true } } := by
  have hn : noticesAfter s o = s.notices := by
    unfold noticesAfter
    rw [ho]
    cases s.pairing.candidate <;> rfl
  rw [endPairing_eq, hn, if_neg hp, resultOf, if_neg hb]
  rfl

theorem endPairing_contested {s : State} (hp : s.pairing.state = .confirm) :
    s.endPairing .contested = { s with
      pairing := Pairing.idle
      result := { slot := s.pairing.slot, hid := s.pairing.candidate, outcome := .contested, attempts := s.pairing.attempt
                  ignored := s.pairing.ignored, store := .none }
      flags := { s.flags with pairing := true } } :=
  endPairing_silent (by rw [hp]; decide) rfl (by decide)

theorem bindOffer_contested {s : State} {h c : Hid} {owner : Option Slot} (hp : s.pairing.state = .confirm)
    (hc : s.pairing.candidate = some c) (hne : c ≠ h) (he : s.eligible owner = true) :
    s.bindOffer h owner = { s with
      pairing := Pairing.idle
      result := { slot := s.pairing.slot, hid := some c, outcome := .contested, attempts := s.pairing.attempt
                  ignored := s.pairing.ignored, store := .none }
      notices := (s.notices ++ ([⟨c, .refused⟩, ⟨h, .refused⟩] : List Notice)).take (max 4 s.notices.length)
      flags := { s.flags with pairing := true } } := by
  have hother : ¬ s.pairing.candidate = some h := fun e => hne (Option.some.inj (hc.symm.trans e))
  have hoffer : s.bindOffer h owner = ((s.endPairing .contested).notify c .refused).notify h .refused := by
    unfold State.bindOffer
    rw [hp]
    refine (if_neg hother).trans ((if_pos he).trans ?_)
    rw [hc]
  rw [hoffer, endPairing_contested hp, notify_eq, notify_eq, ← two_notices, hc]
  rfl

theorem bindOffer_outside (s : State) (h : Hid) (owner : Option Slot) :
    (s.bindOffer h owner).track = s.track ∧ (s.bindOffer h owner).options = s.options
      ∧ (s.bindOffer h owner).railflt = s.railflt := by
  by_cases h1 : s.pairing.state = .awaitHandset
  · by_cases he : s.eligible owner = true
    · rw [bindOffer_candidate h1 he]
      exact ⟨rfl, rfl, rfl⟩
    · rw [bindOffer_ignored (.inl h1) he]
      exact ⟨rfl, rfl, rfl⟩
  by_cases h2 : s.pairing.state = .confirm
  · unfold State.bindOffer
    rw [h2, endPairing_contested h2]
    dsimp only
    split_ifs with hc he
    · exact ⟨rfl, rfl, rfl⟩
    · cases s.pairing.candidate with
      | none =>
        simp only [notify_eq]
        exact ⟨trivial, trivial, trivial⟩
      | some c =>
        simp only [notify_eq]
        exact ⟨trivial, trivial, trivial⟩
    · exact ⟨rfl, rfl, rfl⟩
  · rw [bindOffer_of_other h1 h2]
    exact ⟨rfl, rfl, rfl⟩

/-- Where WAKE is not pressed or wakes nothing, an accepted frame with BIND pressed is `accepted` and its offer. -/
theorem acceptFrame_offer {s : State} {k : Slot} {f : HandsetFrame} (hb : f.bind = true)
    (hw : ¬ (f.wake = true ∧ s.track = .standby ∧ s.options.handsetWake = true ∧ s.railflt = false)) :
    s.acceptFrame k f = (accepted s k f).bindOffer f.hid (some k) := by
  obtain ⟨ht, hopt, hline⟩ := bindOffer_outside (accepted s k f) f.hid (some k)
  rw [acceptFrame_eq, hb]
  refine wake_skipped fun h => hw ?_
  rw [if_pos rfl, ht, hopt, hline] at h
  exact h

/-- Settles O31: the frame is heard as its owner has it, and then its offer is taken by the pairing's state. -/
theorem bindOffersDriveThePairing : Obligations.BindOffersDriveThePairing := by
  intro s owner f hr hs hf hb hw hown hq u eligible run
  have hrun : run = .next (u.bindOffer f.hid owner) := by
    refine (exec_handsetBytes hr hs hf).trans (congrArg Outcome.next ?_)
    have ho := ownerOf_eq hown
    cases owner with
    | some j => exact (handleFrame_new ho (hq j rfl)).trans (acceptFrame_offer hb (hw j rfl))
    | none => exact (handleFrame_unbound ho).trans (if_pos hb)
  have hu : u.pairing = s.pairing ∧ u.now = s.now ∧ u.params = s.params ∧ u.notices = s.notices := by
    cases owner <;> exact ⟨rfl, rfl, rfl, rfl⟩
  obtain ⟨hpairing, hnow, hparams, hnotices⟩ := hu
  have he : u.eligible owner = true ↔ eligible := by rw [eligible_iff, hpairing]
  rw [hrun, ← hpairing, ← hnow, ← hparams, ← hnotices]
  exact ⟨fun hp hel => congrArg Outcome.next (bindOffer_candidate hp (he.mpr hel)),
    fun hp hel => congrArg Outcome.next (bindOffer_ignored hp fun h => hel (he.mp h)),
    fun hp hc => congrArg Outcome.next (bindOffer_again hp hc),
    fun hp h hc hne hel => congrArg Outcome.next (bindOffer_contested hp hc hne (he.mpr hel)),
    fun h1 h2 => congrArg Outcome.next (bindOffer_of_other h1 h2 _ _)⟩

/-! ### Frames of unbound handsets (R30) -/

/-- Settles O32: the entry enters at the front, and six entries are kept. -/
theorem unboundFramesKeepTheList : Obligations.UnboundFramesKeepTheList := by
  intro s f hr _ hq hs hf hb hu
  have ho : s.ownerOf f.hid = none := ownerOf_eq fun j => ⟨fun h => absurd h (hu j), nofun⟩
  have hsix : s.unbound.length ≤ 6 := hq.unbound
  refine ⟨(heard s f).unbound, ?_, ?listed, ?room, ?full⟩
  · rw [exec_handsetBytes hr hs hf, handleFrame_unbound ho, hb]
    rfl
  case listed =>
    rintro ⟨e, he, heq⟩
    have hless : (s.unbound.filter fun e => e.hid ≠ f.hid).length < s.unbound.length :=
      List.length_filter_lt_length_iff_exists.mpr ⟨e, he, by simp [heq]⟩
    exact List.take_of_length_le (by rw [List.length_cons]; omega)
  all_goals
    intro hnew hlen
    have hall : (s.unbound.filter fun e => e.hid ≠ f.hid) = s.unbound :=
      List.filter_eq_self.mpr fun e he => decide_eq_true (hnew e he)
    refine (congrArg (fun l => (heardEntry s f :: l).take 6) hall).trans ?_
  case room => exact List.take_of_length_le (by rw [List.length_cons]; omega)
  case full => rw [List.dropLast_eq_take, hlen, List.take_succ_cons]

end Sys2Proof.Proofs.Handsets
end

section
/-! PROOFS. The auto-caution requests of an event taken at its end; SET_NODE, OPEN_SECTION and CLOSE_SECTION (R72, R97,
R100, R116, R117, R126). -/

namespace Sys2Proof.Proofs.Nodes

open Sys2Proof Sys2Proof.Machine Host Kept Arguments TrackCommands Console

/-! ### Auto-caution requests (R72) -/

theorem requestsDenied_handed (s : State) (q : List CautionSource) : requestsDenied (handed s q) = handed (requestsDenied s) q :=
  requestsDenied_comm (f := fun s => handed s q) (fun s a ds => denials_handed s q a ds) (fun _ _ => rfl) s

theorem cautioned_handed (s : State) (q : List CautionSource) (c : CautionCause) :
    cautioned (handed s q) c = handed (cautioned s c) q := by
  have hd : (if s.options.cautionLanes = .allow then handed s q else requestsDenied (handed s q))
      = handed (if s.options.cautionLanes = .allow then s else requestsDenied s) q := by
    rw [requestsDenied_handed]
    exact (apply_ite (fun s => handed s q) _ _ _).symm
  unfold cautioned
  rw [show (handed s q).options = s.options from rfl, hd]
  generalize (if s.options.cautionLanes = .allow then s else requestsDenied s) = d
  rfl

theorem cautionAfter_handed (s : State) (q l : List CautionSource) :
    cautionAfter (handed s q) l = handed (cautionAfter s l) q := by
  unfold cautionAfter
  rw [show (handed s q).options = s.options from rfl, show (handed s q).track = s.track from rfl]
  cases l.find? fun c => s.options.enables c with
  | none => rfl
  | some c =>
    dsimp only
    rw [cautioned_handed]
    exact (apply_ite (fun s => handed s q) _ _ _).symm

theorem cautionAfter_of_awake {s : State} (h : s.track ≠ .run) (l : List CautionSource) : cautionAfter s l = s := by
  unfold cautionAfter
  split
  · exact if_neg h
  · rfl

theorem foldl_preserves_requests {β : Type} (f : State → β → State) (h : ∀ s b, (f s b).cautionRequests = s.cautionRequests)
    (l : List β) (s : State) : (l.foldl f s).cautionRequests = s.cautionRequests := by
  induction l generalizing s with
  | nil => rfl
  | cons b l ih => rw [List.foldl_cons, ih, h]

theorem requestsDenied_requests (s : State) : (requestsDenied s).cautionRequests = s.cautionRequests :=
  foldl_preserves_requests _ (fun s a => denials_cautionRequests s a _) _ s

theorem cautionAfter_requests (s : State) (l : List CautionSource) : (cautionAfter s l).cautionRequests = s.cautionRequests := by
  unfold cautionAfter
  split
  · split_ifs
    · show (if s.options.cautionLanes = .allow then s else requestsDenied s).cautionRequests = _
      split_ifs
      · rfl
      · exact requestsDenied_requests s
    · rfl
  · rfl

/-- The requests an event hands are taken at its end; only in RUN do they change anything. -/
theorem take_handed {u : State} (q : List CautionSource) (h0 : u.cautionRequests = [])
    (hk : u.track = .run → ClaimListsKept u) : (handed u q).takeCautionRequests = cautionAfter u q := by
  have hnone (v : State) (hv : v.cautionRequests = []) : handed v [] = v := by rw [← hv]; rfl
  by_cases ht : u.track = .run
  · have hkept : ClaimListsKept (handed u q) := hk ht
    rw [takeCautionRequests_eq _ hkept, show (handed u q).cautionRequests = q from rfl, cautionAfter_handed]
    exact hnone (cautionAfter u q) ((cautionAfter_requests u q).trans h0)
  · rw [takeCautionRequests_outside_run (handed u q) ht, cautionAfter_of_awake ht]
    exact hnone u h0

theorem claimsKept_of_run {s : State} (hk : ClaimListsKept s) (ht : s.track = .run) : ClaimsKept s :=
  (claimsKept_iff s).mpr ⟨hk, fun h => absurd ht h⟩

theorem claimLists_of_kept {s : State} (h : ClaimsKept s) : ClaimListsKept s := ((claimsKept_iff s).mp h).1

/-- One more list of requests, handed after those of an operation. -/
theorem take_handed_more {u v : State} {l : List CautionSource} (q : List CautionSource) (hv : v = handed u l)
    (h0 : u.cautionRequests = []) (hk : u.track = .run → ClaimsKept v) :
    (handed v (v.cautionRequests ++ q)).takeCautionRequests = cautionAfter u (l ++ q) := by
  have hmore : handed v (v.cautionRequests ++ q) = handed u (l ++ q) := by rw [hv]; rfl
  have hlists : u.track = .run → ClaimListsKept u := by
    intro ht
    have h := claimLists_of_kept (hk ht)
    rw [hv] at h
    exact h
  rw [hmore]
  exact take_handed (l ++ q) h0 hlists

/-! ### Closing a section (R116) -/

theorem closedNow_requests (s : State) (a : Addr) : (closedNow s a).cautionRequests = s.cautionRequests := by
  unfold closedNow
  split
  · rfl
  · next sec _ =>
    by_cases hc : sec.admin = .closed
    · rw [if_pos hc]
    · rw [if_neg hc]
      exact denials_cautionRequests s a _

/-- The close with NOW and more requests after its own, with the taking of them all. -/
theorem closeNow_taken {s : State} (a : Addr) (q : List CautionSource) (hk : ClaimListsKept s) (h0 : s.cautionRequests = []) :
    (handed (s.closeNow a) ((s.closeNow a).cautionRequests ++ q)).takeCautionRequests
      = cautionAfter (closedNow s a) (lateSources (denialsRecords s a (closingDenials s a)) ++ q) := by
  have heq := closeNow_eq s a hk
  rw [h0, List.nil_append] at heq
  have htrack : (closedNow s a).track = s.track := by
    have h := (closeNow_arbitrated s a).track
    rw [heq] at h
    exact h
  exact take_handed_more q heq ((closedNow_requests s a).trans h0) fun ht =>
    closeNow_kept (claimsKept_of_run hk (htrack.symm.trans ht)) a

theorem busy_iff (sec : Section) : sec.busy = true ↔ ∃ c ∈ sec.claims, c.state = .pending ∨ c.state = .granted := by
  unfold Section.busy
  simp

theorem closeHold_eq (sec : Section) : sec.closeHold = { sec with
    admin := if sec.admin = .opened then
        (if ∃ c ∈ sec.claims, c.state = .pending ∨ c.state = .granted then .closing else .closed)
      else sec.admin } := by
  unfold Section.closeHold
  cases h : sec.admin with
  | opened =>
    have hb : (if sec.busy then AdminState.closing else .closed)
        = if ∃ c ∈ sec.claims, c.state = .pending ∨ c.state = .granted then .closing else .closed :=
      if_congr (busy_iff sec) rfl rfl
    dsimp only
    rw [hb]
    rfl
  | closing | closed =>
    dsimp only
    rw [if_neg (by decide), ← h]

theorem parseClose_read (a : Addr) : parseClose [addrCode a, 0] = some ⟨a, .hold⟩ ∧ parseClose [addrCode a, 1] = some ⟨a, .now⟩ := by
  unfold parseClose
  simp only [addrOfByte_addrCode]
  exact ⟨rfl, rfl⟩

/-- Settles O20. -/
theorem openAndCloseSection : Obligations.OpenAndCloseSection := by
  intro s a hs
  have hopen := exec_of_read (exec_openSection [addrCode a] s) hs (parseAddr_addrCode a)
  have hhold := exec_of_read (exec_closeSection [addrCode a, 0] s) hs (parseClose_read a).1
  have hnow := exec_of_read (exec_closeSection [addrCode a, 1] s) hs (parseClose_read a).2
  rw [State.openSection] at hopen
  rw [State.closeSection] at hhold hnow
  refine ⟨fun hsec i hi => ?absent, fun sec hsec => ⟨?opens, ?holds, fun hk h0 => ?now⟩⟩
  all_goals
    rw [hsec] at hopen hhold hnow
  case absent =>
    simp only [List.mem_cons, List.not_mem_nil, or_false] at hi
    obtain rfl | rfl | rfl := hi
    exacts [hopen, hhold, hnow]
  case opens => exact hopen
  case holds =>
    refine hhold.trans (congrArg Outcome.next ?_)
    dsimp only
    rw [closeHold_eq]
    rfl
  case now =>
    have htaken := closeNow_taken a [] hk h0
    rw [List.append_nil, List.append_nil] at htaken
    refine hnow.trans (congrArg (fun t : State => Outcome.next (t.respond .ok [])) ?_)
    exact htaken

end Sys2Proof.Proofs.Nodes
end

section
/-! PROOFS. SET_NODE: the role already held, and a new one with the record and the throws it takes along (R97, R100, R126,
R146, R164). -/

namespace Sys2Proof.Proofs.Roles

open Sys2Proof Sys2Proof.Machine Host Kept Arguments TrackCommands Timers

/-! ### A run of denials without claims (R126) -/

/-- The record of one denial, and the arm it takes under DROP (R145). -/
def oneRefused (s : State) (a : Addr) (j : Slot) (r : DenyReason) : State :=
  { withQueue s (queued s [denyRecord s a j r none]) with cars := disarmed s fun k => decide (j = k) }

theorem recordDenial_one (s : State) (a : Addr) (j : Slot) (r : DenyReason) :
    s.recordDenial a j r none = oneRefused s a j r := by
  rw [recordDenial_eq, retried_eq, recorded_eq, recordedAll_eq]
  rfl

/-- A denial's record and arm, for each of some slots. -/
theorem foldl_recordDenial (a : Addr) (r : DenyReason) (l : List Slot) (s : State) :
    l.foldl (fun s k => s.recordDenial a k r none) s
      = { withQueue s (queued s (l.map fun k => denyRecord s a k r none)) with
          cars := disarmed s fun k => l.any fun j => decide (j = k) } := by
  induction l generalizing s with
  | nil =>
    have hnone := disarmed_none s
    show s = { s with cars := disarmed s fun _ => false }
    rw [hnone]
  | cons j l ih =>
    have hqueue := queued_withQueue s (oneRefused s a j r) [denyRecord s a j r none]
      (l.map fun k => denyRecord s a k r none) rfl rfl rfl
    have hcars := disarmed_twice s (oneRefused s a j r) (fun k => decide (j = k)) (fun k => l.any fun j => decide (j = k)) rfl
    have hrecords : (l.map fun k => denyRecord (oneRefused s a j r) a k r none) = l.map fun k => denyRecord s a k r none := rfl
    rw [List.foldl_cons, recordDenial_one, ih, hrecords, hqueue, hcars]
    rfl

/-- The requests of a section are denied and its record goes. -/
theorem dropSection_eq (s : State) (a : Addr) :
    s.dropSection a = { withQueue s (queued s ((requestsAt s .closed a).map fun d => denyRecord s a d.slot .closed none)) with
      sections := s.sections.set a none
      cars := disarmed s fun k => (requestsAt s .closed a).any fun d => decide (d.slot = k) } := by
  unfold State.dropSection
  cases hs : s.sectionAt a with
  | none =>
    have hr : requestsAt s .closed a = [] := by
      unfold requestsAt
      rw [hs]
    have hself := setSection_self s a
    have hnone := disarmed_none s
    rw [hs] at hself
    rw [hr]
    show s = { s.setSection a none with cars := disarmed s fun _ => false }
    rw [hself, hnone]
  | some sec =>
    dsimp only
    rw [foldl_recordDenial, requestsAt_eq s .closed a sec hs, List.map_map]
    simp only [List.any_map]
    rfl

/-- The waiting throws without those to an address; the one being sent stays (R106). -/
theorem dropThrowsTo_eq (s : State) (a : Addr) :
    s.dropThrowsTo a = { s with throws := (if s.throwSending then s.throws.take 1 else [])
      ++ (if s.throwSending then s.throws.drop 1 else s.throws).filter fun x => x.dest ≠ a } := by
  have hsent : s.sentThrows = if s.throwSending then s.throws.take 1 else [] := rfl
  have hrest : s.throws.drop s.sentThrows.length = if s.throwSending then s.throws.drop 1 else s.throws := by
    rw [hsent]
    split_ifs
    · cases s.throws <;> rfl
    · rfl
  have hdest : (fun x : Throw => x.dest != a) = fun x => decide (x.dest ≠ a) := by
    funext x
    simp [bne, beq_eq_decide]
  unfold State.dropThrowsTo
  rw [hrest, hsent, hdest]

/-! ### The pad that goes (R164) -/

theorem quietStatus_of_role (role : Role) : quietStatus role = if role = .none then .unconfigured else .unheard := by
  cases role <;> rfl

theorem padStatus_eq (s : State) (role : Role) (old new : NodeStatus) :
    s.padStatus role old new
      = if role = .pad ∧ old = .live ∧ new ≠ .live ∧ NeedsPad s.pairing.state then pairingEnded s .padLost else s := by
  unfold State.padStatus
  rw [endPairing_ended s _ (by decide)]

theorem pairingEnded_respond (s : State) (o : PairingOutcome) (status : Status) (data : List Byte) :
    (pairingEnded s o).respond status data = pairingEnded (s.respond status data) o := by
  unfold pairingEnded
  rw [stopBurst_rail, stopBurst_rail]
  rfl

/-! ### SET_NODE (R97, R100) -/

theorem othersWith_eq (s : State) (a : Addr) (role : Role) :
    s.othersWith a role = (allAddrs.filter fun b => b ≠ a ∧ (s.node b).role = role).length := by
  refine congrArg List.length (List.filter_congr fun b _ => ?_)
  simp [bne, beq_eq_decide]

theorem noRoom_iff (s : State) (a : Addr) (role : Role) :
    s.noRoom a role = true ↔
      (role = .sect ∧ 8 ≤ s.othersWith a role) ∨ (role = .pad ∧ 1 ≤ s.othersWith a role) := by
  unfold State.noRoom
  cases role with
  | sect => exact decide_eq_true_iff.trans ⟨fun h => .inl ⟨rfl, h⟩, fun h => (h.resolve_right nofun).2⟩
  | pad => exact decide_eq_true_iff.trans ⟨fun h => .inr ⟨rfl, h⟩, fun h => (h.resolve_left nofun).2⟩
  | none | gate => exact ⟨nofun, fun h => h.elim nofun nofun⟩

theorem parseNode_read (a : Addr) (role : Role) : parseNode [addrCode a, role.code] = some ⟨a, role⟩ := by
  unfold parseNode
  simp only [addrOfByte_addrCode, roleOfByte_code]

/-- The state after a change of role, the pairing and the answer apart (R100). -/
def reroled (s : State) (a : Addr) (role : Role) : State :=
  { withQueue s (queued s ((requestsAt s .closed a).map fun d => denyRecord s a d.slot .closed none)) with
    nodes := s.nodes.set a (freshEntry role)
    sections := s.sections.set a (if role = .sect then some (Section.created s.pointerByMode) else none)
    throws := if (s.node a).role = .sect then
        (if s.throwSending then s.throws.take 1 else [])
          ++ (if s.throwSending then s.throws.drop 1 else s.throws).filter fun x => x.dest ≠ a
      else s.throws
    cars := disarmed s fun k => (requestsAt s .closed a).any fun d => decide (d.slot = k) }

/-- What the old role leaves behind: a SECTION's record and throws go, any other has none. -/
theorem oldRole_leaves {s : State} {a : Addr} (role : Role) (hr : RegistryKept s) :
    (if (s.node a).role = .sect then ((s.setNode a (freshEntry role)).dropSection a).dropThrowsTo a
      else s.setNode a (freshEntry role)) = { reroled s a role with sections := s.sections.set a none } := by
  by_cases hsect : (s.node a).role = .sect
  · rw [if_pos hsect, dropThrowsTo_eq, dropSection_eq]
    unfold reroled
    rw [if_pos hsect]
    rfl
  · have hnone : s.sectionAt a = none := by
      have h := mt (hr.records a).mp hsect
      rwa [Bool.not_eq_true, Option.isSome_eq_false_iff, Option.isNone_iff_eq_none] at h
    have hself : s.sections.set a none = s.sections := by
      rw [← hnone]
      exact Vector.set_getElem_self ..
    have hrequests : requestsAt s .closed a = [] := by
      unfold requestsAt
      rw [hnone]
    have hcars := disarmed_none s
    rw [if_neg hsect, hself]
    unfold reroled
    rw [if_neg hsect, hrequests]
    show s.setNode a (freshEntry role) = { s.setNode a (freshEntry role) with cars := disarmed s fun _ => false }
    rw [hcars]
    rfl

theorem recordsReroled_eq {s : State} {a : Addr} (role : Role) (hr : RegistryKept s) :
    recordsReroled (s.setNode a (freshEntry role)) a (s.node a).role role = reroled s a role := by
  unfold recordsReroled
  rw [oldRole_leaves role hr]
  by_cases hrole : role = .sect
  · subst hrole
    dsimp only
    rw [if_pos rfl]
    unfold State.setSection
    dsimp only
    rw [Vector.set_set]
    rfl
  · dsimp only
    rw [if_neg hrole]
    unfold reroled
    rw [if_neg hrole]

/-- Settles O18: a new role is `reroled`, answered, with the pairing of a pad that goes ended. -/
theorem setNodeChangesRole : Obligations.SetNodeChangesRole := by
  intro s a role hs hr hk others full old
  have hexec := exec_of_read (exec_setNode [addrCode a, role.code] s) hs (parseNode_read a role)
  have hfull : s.noRoom a role = true ↔ full := by rw [noRoom_iff, othersWith_eq]
  rw [State.setNodeRole] at hexec
  refine ⟨fun h => ?room, fun h hsame => ?held, fun h hother => ?new⟩
  case room => exact hexec.trans (congrArg Outcome.next (if_pos (hfull.mpr h)))
  case held => exact hexec.trans (congrArg Outcome.next ((if_neg (mt hfull.mp h)).trans (if_pos hsame)))
  case new =>
    intro requests created u
    refine hexec.trans (congrArg Outcome.next ((if_neg (mt hfull.mp h)).trans ((if_neg hother).trans ?_)))
    have hu : (reroled s a role).respond .ok [] = u := by
      have hqueue := recordedAll_eq s (requests.map fun d => denyRecord s a d.slot .closed none)
      have hstatus := quietStatus_of_role role
      unfold u reroled freshEntry
      rw [hqueue, hstatus]
      rfl
    have hquiet : quietStatus role ≠ .live := by cases role <;> decide
    have hcond : (s.node a).role = .pad ∧ (s.node a).status = .live ∧ quietStatus role ≠ .live
          ∧ NeedsPad (reroled s a role).pairing.state
        ↔ old.role = .pad ∧ old.status = .live ∧ NeedsPad s.pairing.state :=
      and_congr_right fun _ => and_congr_right fun _ => and_iff_right hquiet
    rw [changeRole_eq, recordsReroled_eq role hr, padStatus_eq, apply_ite (fun t : State => t.respond .ok []),
      pairingEnded_respond, hu]
    exact if_congr hcond rfl rfl

end Sys2Proof.Proofs.Roles
end

section
/-! PROOFS. Frames on the Track Node Bus: the checks, the messages that are no report, and the silence timer (R91 to R98,
R164, R197). -/

namespace Sys2Proof.Proofs.Bus

open Sys2Proof Sys2Proof.Machine Host Kept Arguments TrackCommands Frames Roles

/-! ### The checks (R91, R197) -/

theorem nodeKindOfByte_isSome (k : Byte) : (nodeKindOfByte k).isSome = true ↔ k.toNat ≤ 2 := by
  revert k
  decide +kernel

theorem nodeFaultOfByte_isSome (k : Byte) : (nodeFaultOfByte k).isSome = true ↔ k.toNat ≤ 2 := by
  revert k
  decide +kernel

theorem parsePayload_pad_isSome (o id : Byte) : (parsePayload 3 [o, id]).isSome = true ↔ o.toNat ≤ 2 := by
  show (match o.toNat with
    | 0 => some (NodeMessage.pad .empty none)
    | 1 => some (.pad .one (slotOfByte id))
    | 2 => some (.pad .many none)
    | _ => none).isSome = true ↔ o.toNat ≤ 2
  obtain h | h | h | h : o.toNat = 0 ∨ o.toNat = 1 ∨ o.toNat = 2 ∨ 3 ≤ o.toNat := by omega
  · simp [h]
  · simp [h]
  · simp [h]
  · obtain ⟨n, hn⟩ := Nat.exists_eq_add_of_le' h
    simp [hn]

/-- A reading of one code. -/
theorem map_isSome_iff {f : Byte → Option NodeMessage} {bound : Nat} {payload : List Byte} {read : Option NodeMessage}
    (hone : ∀ k, payload = [k] → read = f k) (hother : payload.length ≠ 1 → read = none)
    (hf : ∀ k, (f k).isSome = true ↔ k.toNat ≤ bound) :
    read.isSome = true ↔ ∃ k, payload = [k] ∧ k.toNat ≤ bound := by
  constructor
  · intro h
    by_cases hlen : payload.length = 1
    · obtain ⟨k, hk⟩ := List.length_eq_one_iff.mp hlen
      exact ⟨k, hk, (hf k).mp (hone k hk ▸ h)⟩
    · rw [hother hlen] at h
      exact nomatch h
  · rintro ⟨k, hk, hle⟩
    rw [hone k hk]
    exact (hf k).mpr hle

theorem parsePayload_hello_isSome (payload : List Byte) :
    (parsePayload 1 payload).isSome = true ↔ ∃ k, payload = [k] ∧ k.toNat ≤ 2 := by
  refine map_isSome_iff (f := fun k => (nodeKindOfByte k).map .hello) (fun k hk => by rw [hk]; rfl) (fun h => ?_) fun k => by
    rw [Option.isSome_map, nodeKindOfByte_isSome]
  rcases payload with _ | ⟨k, _ | ⟨j, l⟩⟩
  · rfl
  · exact absurd rfl h
  · rfl

theorem parsePayload_fault_isSome (payload : List Byte) :
    (parsePayload 4 payload).isSome = true ↔ ∃ k, payload = [k] ∧ k.toNat ≤ 2 := by
  refine map_isSome_iff (f := fun k => (nodeFaultOfByte k).map .fault) (fun k hk => by rw [hk]; rfl) (fun h => ?_) fun k => by
    rw [Option.isSome_map, nodeFaultOfByte_isSome]
  rcases payload with _ | ⟨k, _ | ⟨j, l⟩⟩
  · rfl
  · exact absurd rfl h
  · rfl

theorem parsePayload_sense_isSome (payload : List Byte) :
    (parsePayload 2 payload).isSome = true ↔ payload.length = 3 := by
  rcases payload with _ | ⟨b, _ | ⟨c, _ | ⟨d, _ | ⟨e, l⟩⟩⟩⟩
  · exact ⟨nofun, nofun⟩
  · exact ⟨nofun, nofun⟩
  · exact ⟨nofun, nofun⟩
  · exact ⟨fun _ => rfl, fun _ => rfl⟩
  · exact ⟨nofun, nofun⟩

theorem parsePayload_occupancy_isSome (payload : List Byte) :
    (parsePayload 3 payload).isSome = true ↔ ∃ o id, payload = [o, id] ∧ o.toNat ≤ 2 := by
  rcases payload with _ | ⟨o, _ | ⟨id, _ | ⟨e, l⟩⟩⟩
  · exact ⟨nofun, nofun⟩
  · exact ⟨nofun, nofun⟩
  · refine (parsePayload_pad_isSome o id).trans ⟨fun h => ⟨o, id, rfl, h⟩, ?_⟩
    rintro ⟨o', id', hl, h⟩
    obtain ⟨rfl, -⟩ := List.cons.inj hl
    exact h
  · exact ⟨nofun, nofun⟩

/-- A payload of a kind is read exactly where its length and codes are the kind's own. -/
theorem payloadFits_iff (kind : Byte) (payload : List Byte) :
    PayloadFits kind payload ↔ ¬ (kind.toNat < 1 ∨ 4 < kind.toNat) ∧ (parsePayload kind.toNat payload).isSome = true := by
  have hcode (n : Nat) (hn : n < 256) : kind = BitVec.ofNat 8 n ↔ kind.toNat = n := by
    rw [← BitVec.toNat_inj, BitVec.toNat_ofNat, Nat.mod_eq_of_lt hn]
  unfold PayloadFits
  rw [show (kind = 1 ↔ kind.toNat = 1) from hcode 1 (by decide), show (kind = 2 ↔ kind.toNat = 2) from hcode 2 (by decide),
    show (kind = 3 ↔ kind.toNat = 3) from hcode 3 (by decide), show (kind = 4 ↔ kind.toNat = 4) from hcode 4 (by decide)]
  generalize kind.toNat = n
  obtain rfl | rfl | rfl | rfl | h : n = 1 ∨ n = 2 ∨ n = 3 ∨ n = 4 ∨ (n < 1 ∨ 4 < n) := by omega
  · rw [parsePayload_hello_isSome]
    simp
  · rw [parsePayload_sense_isSome]
    simp
  · rw [parsePayload_occupancy_isSome]
    simp
  · rw [parsePayload_fault_isSome]
    simp
  · refine ⟨fun hfits => ?_, fun hread => absurd h hread.1⟩
    obtain ⟨hn, -⟩ | ⟨hn, -⟩ | ⟨hn, -⟩ | ⟨hn, -⟩ := hfits <;> omega

theorem exec_nodeFrame {s : State} (hr : Running s) (bytes : List Byte) :
    exec (.nodeFrame bytes) s = .next (s.busFrame bytes) :=
  (show exec (.nodeFrame bytes) s = s.take fun s => s.busFrame bytes by unfold exec; rfl).trans (take_of_running hr)

theorem busFrame_bad {bytes : List Byte} (h : parseBusFrame bytes = .bad) (s : State) :
    s.busFrame bytes = { s with nodeErrors := min 65535 (s.nodeErrors + 1) } := by
  unfold State.busFrame
  rw [h, bump_eq]

theorem busFrame_elsewhere {bytes : List Byte} (h : parseBusFrame bytes = .elsewhere) (s : State) : s.busFrame bytes = s := by
  unfold State.busFrame
  rw [h]

theorem busFrame_message {bytes : List Byte} {a : Addr} {m : NodeMessage} (h : parseBusFrame bytes = .message a m) (s : State) :
    s.busFrame bytes = (s.nodeMessage a m).takeCautionRequests := by
  unfold State.busFrame
  rw [h]

theorem addrOfNat_zero : addrOfNat 0 = none := rfl

theorem addrOfNat_addrNumber (a : Addr) : addrOfNat (addrNumber a) = some a := by
  revert a
  decide

theorem addrOfNat_isSome {n : Nat} (h0 : n ≠ 0) (h : n < 16) : ∃ a, addrOfNat n = some a :=
  ⟨_, dif_pos ⟨Nat.pos_of_ne_zero h0, Nat.le_of_lt_succ h⟩⟩

/-- A frame with its CRC-8 whose source or payload fails. -/
theorem parseBusFrame_misfit {src dst kind : Byte} {payload : List Byte}
    (h : src.toNat % 16 = 0 ∨ ¬ PayloadFits kind payload) :
    parseBusFrame (src :: dst :: kind :: payload ++ [crc8 (src :: dst :: kind :: payload)]) = .bad := by
  by_cases hlen : payload.length ≤ 6
  · rw [parseBusFrame_sealed (by simp) (by simp only [List.length_cons]; omega)]
    unfold readBody
    dsimp only
    cases ha : addrOfNat (src.toNat % 16) with
    | none => rfl
    | some a =>
      have hsrc : src.toNat % 16 ≠ 0 := by
        intro h0
        rw [h0, addrOfNat_zero] at ha
        exact nomatch ha
      have hfits := mt (payloadFits_iff kind payload).mpr (h.resolve_left hsrc)
      dsimp only
      by_cases hkind : kind.toNat < 1 ∨ 4 < kind.toNat
      · rw [if_pos hkind]
      · rw [if_neg hkind]
        rw [not_and, Bool.not_eq_true, Option.isSome_eq_false_iff, Option.isNone_iff_eq_none] at hfits
        rw [hfits hkind]
  · exact parseBusFrame_of_size (.inr (by simp only [List.length_append, List.length_cons, List.length_nil]; omega))

theorem payload_length {kind : Byte} {payload : List Byte} (h : PayloadFits kind payload) : payload.length ≤ 3 := by
  obtain ⟨-, k, rfl, -⟩ | ⟨-, h⟩ | ⟨-, o, id, rfl, -⟩ | ⟨-, k, rfl, -⟩ := h
  · exact show 1 ≤ 3 by decide
  · exact h.le
  · exact show 2 ≤ 3 by decide
  · exact show 1 ≤ 3 by decide

/-- A frame with its CRC-8 whose checks pass, by its destination. -/
theorem parseBusFrame_fit {src dst kind : Byte} {payload : List Byte} {a : Addr} {m : NodeMessage}
    (ha : addrOfNat (src.toNat % 16) = some a) (hfits : PayloadFits kind payload)
    (hm : parsePayload kind.toNat payload = some m) :
    parseBusFrame (src :: dst :: kind :: payload ++ [crc8 (src :: dst :: kind :: payload)])
      = if dst.toNat % 16 = 0 then .message a m else .elsewhere := by
  have hlen := payload_length hfits
  rw [parseBusFrame_sealed (by simp) (by simp only [List.length_cons]; omega)]
  unfold readBody
  dsimp only
  rw [ha]
  dsimp only
  rw [if_neg ((payloadFits_iff kind payload).mp hfits).1, hm]

/-! ### Messages that are no report (R92 to R98) -/

theorem sends_iff (r : Role) (m : NodeMessage) : r.sends m = true ↔ Takes r m := by
  cases m with
  | hello k => cases r <;> simp [Role.sends, Takes]
  | sense x l c age => cases r <;> simp [Role.sends, Takes]
  | pad o id => cases r <;> simp [Role.sends, Takes]
  | fault k => cases r <;> simp [Role.sends, Takes]

theorem nodeMessage_standby {s : State} (h : s.track = .standby) (a : Addr) (m : NodeMessage) : s.nodeMessage a m = s :=
  if_pos h

theorem nodeMessage_stray {s : State} {a : Addr} {m : NodeMessage} (ht : s.track ≠ .standby)
    (h : (s.node a).status = .unconfigured ∨ ¬ Takes (s.node a).role m) :
    s.nodeMessage a m = { withNode s a { s.node a with lastHeard := some s.now } with
      strayReports := min 65535 (s.strayReports + 1) } := by
  rw [← sends_iff, Bool.not_eq_true] at h
  exact (if_neg ht).trans (if_pos h)

theorem nodeMessage_taken {s : State} {a : Addr} {m : NodeMessage} (ht : s.track ≠ .standby)
    (hs : (s.node a).status ≠ .unconfigured) (hm : Takes (s.node a).role m) :
    s.nodeMessage a m = match m with
      | .hello kind => s.hello a kind
      | m => if (s.node a).status = .unheard ∨ (s.node a).status = .mismatch then s.heardOnly a else s.report a m := by
  have h : ¬ ((s.node a).status = .unconfigured ∨ (s.node a).role.sends m = false) := by
    rw [← sends_iff] at hm
    rw [hm]
    exact fun h => h.elim hs nofun
  exact (if_neg ht).trans ((if_neg h).trans (by cases m <;> rfl))

theorem raiseIf_node (s : State) (b : Bool) :
    s.raiseIf b .node = { s with flags := { s.flags with node := s.flags.node || b } } := by
  cases b with
  | false => rw [Bool.or_false]; rfl
  | true => rw [Bool.or_true]; rfl

theorem raisesNode_eq (old new : NodeStatus) : raisesNode old new = decide ((new = .silent ∧ old ≠ .silent)
    ∨ (new = .mismatch ∧ old ≠ .mismatch) ∨ (new = .live ∧ (old = .silent ∨ old = .mismatch))) := by
  cases old <;> cases new <;> rfl

theorem updateNode_eq (s : State) (a : Addr) (n : Node) :
    s.updateNode a n =
      let u : State := { withNode s a n with
        flags := { s.flags with node := s.flags.node || raisesNode (s.node a).status n.status } }
      if n.role = .pad ∧ (s.node a).status = .live ∧ n.status ≠ .live ∧ NeedsPad s.pairing.state then pairingEnded u .padLost
      else u := by
  unfold State.updateNode
  dsimp only
  rw [padStatus_eq, raiseIf_node]
  rfl

theorem helloStatus_eq (kind : NodeKind) (role : Role) :
    (if kind.isRole role then NodeStatus.live else .mismatch) = helloStatus role kind := by
  cases kind <;> cases role <;> rfl

theorem helloStatus_raises (role : Role) (kind : NodeKind) (old : NodeStatus) :
    raisesNode old (helloStatus role kind) = decide ((helloStatus role kind = .mismatch ∧ old ≠ .mismatch)
      ∨ (helloStatus role kind = .live ∧ (old = .silent ∨ old = .mismatch))) := by
  have hs : helloStatus role kind ≠ .silent := by
    unfold helloStatus
    split_ifs <;> decide
  rw [raisesNode_eq]
  exact decide_eq_decide.mpr (or_iff_right fun h => hs h.1)

theorem exec_silenceExpiry (a : Addr) (s : State) :
    exec (.silenceExpiry a) s = s.take fun s => if (s.node a).silenceDue s.now then s.goSilent a else s := by
  unfold exec; rfl

theorem silenceDue_iff (n : Node) (now : TrackTime) : n.silenceDue now = true ↔
    n.status = .live ∧ ∃ t, n.lastHeard = some t ∧ Reached now (t + 3000) := by
  unfold Node.silenceDue
  rw [Bool.and_eq_true, decide_eq_true_iff]
  refine and_congr_right fun _ => ?_
  cases n.lastHeard with
  | none => exact ⟨nofun, nofun⟩
  | some t => exact (expired_some_iff now _).trans ⟨fun h => ⟨t, rfl, h⟩, fun ⟨_, ht, h⟩ => Option.some.inj ht ▸ h⟩

theorem goSilent_of_live {s : State} {a : Addr} (h : (s.node a).status = .live) :
    s.goSilent a =
      let u : State := { withNode s a { s.node a with status := .silent } with flags := { s.flags with node := true } }
      if (s.node a).role = .pad ∧ NeedsPad s.pairing.state then pairingEnded u .padLost else u := by
  have hraise : (s.flags.node || raisesNode (s.node a).status .silent) = true := by
    rw [h]
    exact Bool.or_true _
  have hcond : (s.node a).role = .pad ∧ (s.node a).status = .live ∧ NodeStatus.silent ≠ .live ∧ NeedsPad s.pairing.state
      ↔ (s.node a).role = .pad ∧ NeedsPad s.pairing.state :=
    and_congr_right fun _ => (and_iff_right h).trans (and_iff_right (by decide))
  rw [State.goSilent, updateNode_eq]
  dsimp only
  rw [hraise]
  exact if_congr hcond rfl rfl

/-- The taking of no request, where a pairing may have ended. -/
theorem take_of_pairing {u : State} (h0 : u.cautionRequests = []) (c : Prop) [Decidable c] (o : PairingOutcome) :
    (if c then pairingEnded u o else u).takeCautionRequests = if c then pairingEnded u o else u := by
  refine takeCautionRequests_nil _ ?_
  split_ifs
  · exact h0
  · exact h0

/-- Settles O41. -/
theorem nodeFramesAndSilence : Obligations.NodeFramesAndSilence := by
  intro s hr h0 counted sealed
  have hbad (bytes : List Byte) (h : parseBusFrame bytes = .bad) : exec (.nodeFrame bytes) s = counted :=
    (exec_nodeFrame hr bytes).trans (congrArg Outcome.next (busFrame_bad h s))
  have helsewhere (bytes : List Byte) (h : parseBusFrame bytes = .elsewhere) : exec (.nodeFrame bytes) s = .next s :=
    (exec_nodeFrame hr bytes).trans (congrArg Outcome.next (busFrame_elsewhere h s))
  refine ⟨fun bytes h => hbad _ (parseBusFrame_of_size h), fun body c h => hbad _ (parseBusFrame_of_crc h),
    fun src dst kind payload h => hbad _ (parseBusFrame_misfit h), fun src dst kind payload hsrc hfits hdst => ?other,
    fun src dst a hsrc hdst => ?readings, hbad, helsewhere, fun a m bytes hm => ?messages⟩
  case other =>
    obtain ⟨a, ha⟩ := addrOfNat_isSome hsrc (Nat.mod_lt _ (by decide))
    obtain ⟨m, hm⟩ := Option.isSome_iff_exists.mp ((payloadFits_iff kind payload).mp hfits).2
    exact helsewhere _ ((parseBusFrame_fit ha hfits hm).trans (if_neg hdst))
  case readings =>
    have hread {kind : Byte} {payload : List Byte} {m : NodeMessage} (hkind : ¬ (kind.toNat < 1 ∨ 4 < kind.toNat))
        (hm : parsePayload kind.toNat payload = some m) :
        parseBusFrame (sealed (src :: dst :: kind :: payload)) = .message a m :=
      (parseBusFrame_fit (hsrc ▸ addrOfNat_addrNumber a)
        ((payloadFits_iff kind payload).mpr ⟨hkind, hm ▸ rfl⟩) hm).trans (if_pos hdst)
    refine ⟨fun b car age => hread (by decide) rfl, fun kind => hread (by decide) ?_,
      fun id => ⟨hread (by decide) rfl, hread (by decide) rfl, hread (by decide) rfl⟩, fun kind => hread (by decide) ?_⟩
    · cases kind <;> rfl
    · cases kind <;> rfl
  case messages =>
    intro n run timed
    have hrun : run = .next (s.nodeMessage a m).takeCautionRequests :=
      (exec_nodeFrame hr bytes).trans (congrArg Outcome.next (busFrame_message hm s))
    have hsilence : exec (.silenceExpiry a) s = .next (if (s.node a).silenceDue s.now then s.goSilent a else s) :=
      (exec_silenceExpiry a s).trans (take_of_running hr)
    refine ⟨fun ht => ?standby, fun ht h => ?stray, fun ht hst hk kind h => ?hello, fun ht hst hk hno => ?quiet,
      fun hl hdue => ?silent, fun h => ?kept⟩
    case standby => rw [hrun, nodeMessage_standby ht, takeCautionRequests_nil s h0]
    case stray =>
      rw [hrun, nodeMessage_stray ht h]
      exact congrArg Outcome.next (takeCautionRequests_nil _ h0)
    case hello =>
      subst h
      intro new u
      have hhello : s.hello a kind
          = if n.role = .pad ∧ n.status = .live ∧ new ≠ .live ∧ NeedsPad s.pairing.state then pairingEnded u .padLost
            else u := by
        unfold State.hello
        rw [updateNode_eq]
        dsimp only
        rw [helloStatus_eq, helloStatus_raises]
      rw [hrun, nodeMessage_taken ht hst hk]
      dsimp only
      rw [hhello]
      exact congrArg Outcome.next (take_of_pairing (u := u) h0 _ _)
    case quiet =>
      have hheard : s.nodeMessage a m = timed := by
        have hst' : (s.node a).status ≠ .unconfigured := fun e => by
          rw [e] at hst
          exact hst.elim nofun nofun
        rw [nodeMessage_taken ht hst' hk]
        cases m with
        | hello kind => exact absurd rfl (hno kind)
        | sense x l c age => exact if_pos hst
        | pad o id => exact if_pos hst
        | fault k => exact if_pos hst
      rw [hrun, hheard]
      exact congrArg Outcome.next (takeCautionRequests_nil _ h0)
    case silent =>
      intro u
      rw [hsilence, if_pos ((silenceDue_iff _ _).mpr ⟨hl, hdue⟩), goSilent_of_live hl]
    case kept =>
      rw [hsilence, if_neg]
      rw [silenceDue_iff]
      rintro ⟨hl, t, ht, hreached⟩
      exact h.elim (fun h => h hl) fun h => h t ht hreached

end Sys2Proof.Proofs.Bus
end

section
/-! PROOFS. Reports of a LIVE or SILENT node: the pad's, by the pairing's state, and faults (R96, R103, R104, R161 to R163). -/

namespace Sys2Proof.Proofs.Reports

open Sys2Proof Sys2Proof.Machine Host Kept Arguments TrackCommands Frames Handsets Bindings Nodes Bus

/-- What the kind of report leads to, the entry apart (R102 to R104). -/
def acted (u : State) (a : Addr) : NodeMessage → State
  | .hello kind => u.hello a kind
  | .sense sensor lane car age =>
    u.sighting { node := a, role := (u.node a).role, sensor := sensor, lane := lane, car := car
                 sense := before u.now age }
  | .pad occ id => u.padReport occ id
  | .fault kind => u.faultReport a kind

/-- A report leaves its entry LIVE, and then acts. -/
theorem report_eq {s : State} {a : Addr} (h : (s.node a).status = .live ∨ (s.node a).status = .silent) (m : NodeMessage) :
    s.report a m = acted (reported s a) a m := by
  have hraise : raisesNode (s.node a).status .live = decide ((s.node a).status = .silent) := by
    obtain h | h := h <;> rw [h] <;> rfl
  have hlive : s.updateNode a { s.node a with status := .live, lastHeard := some s.now } = reported s a := by
    rw [updateNode_eq]
    dsimp only
    rw [if_neg fun h => h.2.2.1 rfl, hraise]
    rfl
  unfold State.report
  rw [hlive]
  cases m <;> rfl

/-- The run of a report's frame, from an entry LIVE or SILENT. -/
theorem exec_report {s : State} {a : Addr} {bytes : List Byte} {m : NodeMessage} (hr : Running s) (ht : s.track ≠ .standby)
    (hs : (s.node a).status = .live ∨ (s.node a).status = .silent) (hm : parseBusFrame bytes = .message a m)
    (hk : Takes (s.node a).role m) (hno : ∀ kind, m ≠ .hello kind) :
    exec (.nodeFrame bytes) s = .next (acted (reported s a) a m).takeCautionRequests := by
  have hunconfigured : (s.node a).status ≠ .unconfigured := fun e => by
    rw [e] at hs
    exact hs.elim nofun nofun
  have hheard : ¬ ((s.node a).status = .unheard ∨ (s.node a).status = .mismatch) := fun e => by
    obtain hs | hs := hs <;> rw [hs] at e <;> exact e.elim nofun nofun
  rw [exec_nodeFrame hr, busFrame_message hm, nodeMessage_taken ht hunconfigured hk, ← report_eq hs]
  refine congrArg (fun t : State => Outcome.next t.takeCautionRequests) ?_
  cases m with
  | hello kind => exact absurd rfl (hno kind)
  | sense x l c age => exact if_neg hheard
  | pad o id => exact if_neg hheard
  | fault k => exact if_neg hheard

/-! ### The pad's reports (R161 to R163, R165) -/

theorem program_eq {s : State} (ht : s.track = .halt) (k : Slot) (attempt : Nat) :
    s.program k attempt = { s with
      pairing := { s.pairing with state := .programming, slot := some k, attempt := attempt, verifyExpiry := none }
      rail := { s.rail with
        burst := .active, burstSlot := some k, burstRepeat := some s.params.programRepeat, programSent := 0
        padfeed := none } } := by
  rw [State.program, State.requestBurst, if_pos ht]
  rfl

theorem free_iff (s : State) (k : Slot) : s.free k = true ↔ (s.car k).binding = none ∧ (s.car k).consoleDrive = none := by
  unfold State.free
  rw [Bool.and_eq_true, Option.isNone_iff_eq_none, Option.isNone_iff_eq_none]

theorem padReport_chosen {s : State} (hp : s.pairing.state = .awaitCar) {k : Slot} (hk : s.chooseSlot = some k)
    (id : Option Slot) : s.padReport .one id = s.program k 1 := by
  unfold State.padReport
  rw [hp]
  dsimp only
  rw [hk]

theorem padReport_noSlot {s : State} (hp : s.pairing.state = .awaitCar) (hk : s.chooseSlot = none) (id : Option Slot) :
    s.padReport .one id = s.endPairing .noSlot := by
  unfold State.padReport
  rw [hp]
  dsimp only
  rw [hk]

theorem padReport_verified {s : State} (hp : s.pairing.state = .verify) {id : Option Slot} (h : id ≠ none)
    (hk : id = s.pairing.slot) :
    s.padReport .one id = { s with pairing := { s.pairing with state := .awaitHandset, verifyExpiry := none } } := by
  unfold State.padReport
  rw [hp]
  exact if_pos ⟨Option.isSome_iff_ne_none.mpr h, hk⟩

theorem padReport_failed {s : State} (hp : s.pairing.state = .verify) {id : Option Slot} (h : id = none ∨ id ≠ s.pairing.slot) :
    s.padReport .one id = s.failedAttempt := by
  unfold State.padReport
  rw [hp]
  refine if_neg fun hk => ?_
  obtain ⟨hsome, hslot⟩ := hk
  exact h.elim (Option.isSome_iff_ne_none.mp hsome) fun hne => hne hslot

theorem padReport_many {s : State} (hp : s.pairing.state = .verify) (id : Option Slot) :
    s.padReport .many id = s.failedAttempt := by
  unfold State.padReport
  rw [hp]

/-- In the other states a car on the pad, or several, tell nothing; an empty pad tells something in two. -/
theorem padReport_ignored {s : State} {occ : Occupancy} (hw : s.pairing.state = .awaitCar → occ ≠ .one)
    (hp : s.pairing.state = .programming → occ ≠ .empty) (hv : s.pairing.state ≠ .verify) (id : Option Slot) :
    s.padReport occ id = s := by
  unfold State.padReport
  cases h : s.pairing.state with
  | awaitCar =>
    cases occ with
    | one => exact absurd rfl (hw h)
    | empty | many => rfl
  | programming =>
    cases occ with
    | empty => exact absurd rfl (hp h)
    | one | many => rfl
  | verify => exact absurd h hv
  | idle | awaitHandset | confirm => rfl

theorem padReport_emptied_programming {s : State} (hp : s.pairing.state = .programming) (id : Option Slot) :
    s.padReport .empty id = { s with
      pairing := { s.pairing with
        state := .awaitCar, attempt := 0, verifyExpiry := none
        slot := if s.pairing.mode = some .auto then none else s.pairing.slot }
      rail := s.stopBurst.rail } := by
  unfold State.padReport
  rw [hp]
  dsimp only
  rw [stopBurst_eq]
  rfl

theorem padReport_emptied_verify {s : State} (hp : s.pairing.state = .verify) (id : Option Slot) :
    s.padReport .empty id = { s with
      pairing := { s.pairing with
        state := .awaitCar, attempt := 0, verifyExpiry := none
        slot := if s.pairing.mode = some .auto then none else s.pairing.slot } } := by
  unfold State.padReport
  rw [hp]
  rfl

/-! ### Fault reports (R104) -/

/-- The entry holds the fault, and FAULT is raised. -/
def faulted (s : State) (a : Addr) (kind : NodeFault) : State :=
  { withNode s a { s.node a with fault := some kind } with flags := { s.flags with fault := true } }

theorem faulted_role (s : State) (a : Addr) (kind : NodeFault) : ((faulted s a kind).node a).role = (s.node a).role := by
  show ((s.setNode a { s.node a with fault := some kind }).node a).role = _
  rw [setNode_node, if_pos rfl]

theorem faultReport_plain {s : State} {a : Addr} (h : (s.node a).role ≠ .sect) (kind : NodeFault) :
    s.faultReport a kind = faulted s a kind := by
  rw [← faulted_role s a kind] at h
  exact if_neg h

theorem faultReport_section {s : State} {a : Addr} (h : (s.node a).role = .sect) (kind : NodeFault) :
    s.faultReport a kind = handed ((faulted s a kind).closeNow a)
      (((faulted s a kind).closeNow a).cautionRequests ++ [.nodeFault]) := by
  rw [← faulted_role s a kind] at h
  exact if_pos h

/-- Settles O42. -/
theorem padAndFaultReports : Obligations.PadAndFaultReports := by
  intro s a bytes hr h0 ht hs u run Free programmed failed emptied
  have hpad {occ : Occupancy} {id : Option Slot} (hrole : (s.node a).role = .pad)
      (hm : parseBusFrame bytes = .message a (.pad occ id)) : run = .next (u.padReport occ id) := by
    refine (exec_report hr ht hs hm hrole (fun _ => nofun)).trans (congrArg Outcome.next (takeCautionRequests_nil _ ?_))
    exact (padReport_plain u occ id).requests.trans h0
  have hfailed (h : s.pairing.state = .verify → run = .next u.failedAttempt) : failed := by
    intro hp hhalt k hk
    rw [h hp]
    split_ifs with hmore
    · exact congrArg Outcome.next (failedAttempt_again (s := u) hk hhalt hmore)
    · exact congrArg Outcome.next (failedAttempt_last (s := u) (Nat.le_of_not_lt hmore))
  refine ⟨fun id hrole hm => ⟨fun hp hhalt k hk => ?named, fun hp hhalt hauto k hk hlow => ?free, fun hp hauto hnone => ?noSlot,
      fun hp hid hslot => ?verified, fun h => hfailed fun hp => ?wrong, fun h => ?ignored⟩,
    fun hrole hm => ⟨hfailed fun hp => ?many, fun h => ?manyIgnored⟩,
    fun hrole hm => ⟨fun hp => ?stopped, fun hp => ?emptied, fun h1 h2 => ?emptyIgnored⟩,
    fun kind hm => ?fault⟩
  case named =>
    have hchoose : u.chooseSlot = some k := by
      unfold State.chooseSlot
      rw [show u.pairing.mode = some (.slot k) from hk]
    rw [hpad hrole hm, padReport_chosen (s := u) hp hchoose]
    exact congrArg Outcome.next (program_eq (s := u) hhalt k 1)
  case free =>
    have hchoose : u.chooseSlot = some k := by
      unfold State.chooseSlot
      rw [show u.pairing.mode = some .auto from hauto]
      exact find_allSlots.mpr ⟨(free_iff u k).mpr hk, fun j hj h => hlow j hj ((free_iff u j).mp h)⟩
    rw [hpad hrole hm, padReport_chosen (s := u) hp hchoose]
    exact congrArg Outcome.next (program_eq (s := u) hhalt k 1)
  case noSlot =>
    have hchoose : u.chooseSlot = none := by
      unfold State.chooseSlot
      rw [show u.pairing.mode = some .auto from hauto]
      exact List.find?_eq_none.mpr fun j _ h => hnone j ((free_iff u j).mp h)
    rw [hpad hrole hm, padReport_noSlot (s := u) hp hchoose]
    have hstate : u.pairing.state ≠ .programming := by
      rw [show u.pairing.state = .awaitCar from hp]
      decide
    exact congrArg Outcome.next (endPairing_silent (s := u) hstate rfl (by decide))
  case verified => exact (hpad hrole hm).trans (congrArg Outcome.next (padReport_verified (s := u) hp hid hslot))
  case wrong => rw [hpad hrole hm, padReport_failed (s := u) hp h]
  case ignored =>
    have hstate : s.pairing.state ≠ .awaitCar ∧ s.pairing.state ≠ .verify := by
      obtain h | h | h | h := h <;> rw [h] <;> decide
    obtain ⟨hw, hv⟩ := hstate
    rw [hpad hrole hm, padReport_ignored (s := u) (fun e => absurd e hw) (fun _ => by decide) hv]
  case many => rw [hpad hrole hm, padReport_many (s := u) hp]
  case manyIgnored => rw [hpad hrole hm, padReport_ignored (s := u) (fun _ => by decide) (fun _ => by decide) h]
  case stopped =>
    have hrail : u.stopBurst.rail = s.stopBurst.rail := by
      rw [stopBurst_rail, stopBurst_rail]
      exact rfl
    rw [← hrail]
    exact (hpad hrole hm).trans (congrArg Outcome.next (padReport_emptied_programming (s := u) hp _))
  case emptied => exact (hpad hrole hm).trans (congrArg Outcome.next (padReport_emptied_verify (s := u) hp _))
  case emptyIgnored => rw [hpad hrole hm, padReport_ignored (s := u) (fun _ => by decide) (fun e => absurd e h1) h2]
  case fault =>
    intro v
    have hv (hk : Takes (s.node a).role (.fault kind)) : run = .next (u.faultReport a kind).takeCautionRequests :=
      exec_report hr ht hs hm hk fun _ => nofun
    have hu : (u.node a).role = (s.node a).role := by
      show ((s.setNode a _).node a).role = _
      rw [setNode_node, if_pos rfl]
    refine ⟨fun hrole => ?_, fun hrole hk => ?_⟩
    · have hplain : (u.node a).role ≠ .sect := by
        rw [hu]
        obtain h | h := hrole <;> rw [h] <;> decide
      rw [hv (.inr hrole), faultReport_plain hplain]
      exact congrArg Outcome.next (takeCautionRequests_nil v h0)
    · rw [hv (.inl hrole), faultReport_section (hu.trans hrole)]
      exact congrArg Outcome.next (closeNow_taken (s := v) a [.nodeFault] hk h0)

end Sys2Proof.Proofs.Reports
end

section
/-! PROOFS. The operations of the Section Arbiter as events: the lapse of a claim (R72, R113, R136). -/

namespace Sys2Proof.Proofs.Lapses

open Sys2Proof Sys2Proof.Machine Host Kept Arguments Nodes

/-! ### What an operation of the arbiter hands (R72) -/

/-- An operation of the arbiter with the taking of the requests it hands. -/
theorem take_operation {s t u : State} {l : List CautionSource} (ha : Arbitrated s t) (hkept : ClaimsKept s → ClaimsKept t)
    (ht : t = handed u l) (h0 : u.cautionRequests = []) (hk : ClaimListsKept s) : t.takeCautionRequests = cautionAfter u l := by
  have htrack : u.track = s.track := by
    have h := ha.track
    rw [ht] at h
    exact h
  have hlists : u.track = .run → ClaimListsKept u := by
    intro hr
    have h := claimLists_of_kept (hkept (claimsKept_of_run hk (htrack.symm.trans hr)))
    rw [ht] at h
    exact h
  rw [ht]
  exact take_handed l h0 hlists

/-! ### What records leave -/

theorem recorded_requests (s : State) (d : Decision) : (recorded s d).cautionRequests = s.cautionRequests := by
  rw [recorded_eq, recordedAll_eq]
  rfl

theorem recorded_sections (s : State) (d : Decision) : (recorded s d).sections = s.sections := by
  rw [recorded_eq, recordedAll_eq]
  rfl

theorem retried_requests (s : State) (k : Slot) : (retried s k).cautionRequests = s.cautionRequests := by
  rw [retried_eq]

theorem plainRecord_congr {s t : State} (h : t.now = s.now) (a : Addr) (car : CarRef) (o : DecisionOutcome) :
    plainRecord t a car o = plainRecord s a car o := by
  unfold plainRecord
  rw [h]

theorem refused_now (s : State) (d : Decision) (k : Slot) : (retried (recorded s d) k).now = s.now := by
  rw [retried_eq, recorded_eq, recordedAll_eq]
  rfl

theorem requestCaution_eq {s : State} (h0 : s.cautionRequests = []) (c : CautionSource) : s.requestCaution c = handed s [c] := by
  unfold State.requestCaution
  rw [h0]
  exact rfl

/-! ### Lapses (R113, R136) -/

theorem exec_claimLapse (a : Addr) (place : Nat) (s : State) : exec (.claimLapse a place) s
    = s.take fun s => if s.lapseDue a place then (s.lapseClaim a place).takeCautionRequests else s := by
  unfold exec; rfl

theorem lapseDue_iff (s : State) (a : Addr) (place : Nat) : s.lapseDue a place = true ↔
    ∃ sec c t, s.sectionAt a = some sec ∧ sec.claims[place]? = some c ∧ c.lapse = some t ∧ Reached s.now t := by
  unfold State.lapseDue
  cases hs : s.sectionAt a with
  | none =>
    refine ⟨nofun, ?_⟩
    rintro ⟨sec, -, -, h, -⟩
    exact nomatch h
  | some sec =>
    dsimp only
    cases hc : sec.claims[place]? with
    | none =>
      refine ⟨nofun, ?_⟩
      rintro ⟨sec', c, t, h, hc', -⟩
      obtain rfl := Option.some.inj h
      exact nomatch hc.symm.trans hc'
    | some c =>
      dsimp only
      cases hl : c.lapse with
      | none =>
        refine ⟨nofun, ?_⟩
        rintro ⟨sec', c', t, h, hc', hl', -⟩
        obtain rfl := Option.some.inj h
        obtain rfl := Option.some.inj (hc.symm.trans hc')
        exact nomatch hl.symm.trans hl'
      | some t =>
        refine (expired_some_iff _ _).trans ⟨fun h => ⟨sec, c, t, rfl, hc, hl, h⟩, ?_⟩
        rintro ⟨sec', c', t', h, hc', hl', hreached⟩
        obtain rfl := Option.some.inj h
        obtain rfl := Option.some.inj (hc.symm.trans hc')
        obtain rfl := Option.some.inj (hl.symm.trans hl')
        exact hreached

/-- The section without the claim at a place, the lapse counted. -/
def withoutClaim (u : State) (a : Addr) (sec : Section) (place : Nat) : State :=
  { u with sections := u.sections.set a (some (afterRemoval
      { sec with lapseCount := min 65535 (sec.lapseCount + 1) } (sec.claims.eraseIdx place))) }

theorem setSection_lapsed (u : State) (a : Addr) (sec : Section) (place : Nat) :
    u.setSection a (some (Section.lapsed sec place)) = withoutClaim u a sec place := by
  unfold Section.lapsed
  rw [removeTo_eq, bump_eq]
  rfl

/-- Settles O43. -/
theorem claimLapseRemovesTheClaim : Obligations.ClaimLapseRemovesTheClaim := by
  intro s a place hr h0 hk
  have hrun : exec (.claimLapse a place) s
      = .next (if s.lapseDue a place then (s.lapseClaim a place).takeCautionRequests else s) :=
    (exec_claimLapse a place s).trans (take_of_running hr)
  refine ⟨fun sec hs hnot => ?early, fun hs => ?absent, fun sec c t hs hc hl hreached => ?lapses⟩
  case early =>
    rw [hrun, if_neg]
    rw [lapseDue_iff]
    rintro ⟨sec', c, t, hs', hc, hl, hreached⟩
    obtain rfl := Option.some.inj (hs.symm.trans hs')
    exact hnot c hc t hl hreached
  case absent =>
    rw [hrun, if_neg]
    rw [lapseDue_iff]
    rintro ⟨sec', -, -, hs', -⟩
    exact nomatch hs.symm.trans hs'
  case lapses =>
    intro run gone
    have hlapse : run = .next (s.lapseClaim a place).takeCautionRequests :=
      hrun.trans (congrArg Outcome.next (if_pos ((lapseDue_iff s a place).mpr ⟨sec, c, t, hs, hc, hl, hreached⟩)))
    have htaken {u : State} (hu : s.lapseClaim a place = handed u [.lapse]) (hu0 : u.cautionRequests = []) :
        run = .next (cautionAfter u [.lapse]) :=
      hlapse.trans (congrArg Outcome.next
        (take_operation (lapseClaim_arbitrated s a place) (fun h => lapseClaim_kept h a place) hu hu0 hk))
    refine ⟨fun hp => ?predicted, fun hp => ?standing, fun hp j hj => ?request⟩
    case predicted =>
      rw [hlapse, lapseClaim_of_predicted hs hc hp, setSection_lapsed]
      exact congrArg Outcome.next (takeCautionRequests_nil _ h0)
    case standing =>
      have hstate : c.state ≠ .predicted ∧ c.state ≠ .pending := by
        obtain hp | hp := hp <;> rw [hp] <;> decide
      obtain ⟨hpredicted, hpending⟩ := hstate
      have hnone : (recorded (gone s) (plainRecord s a c.car .lapse)).cautionRequests = [] :=
        (recorded_requests _ _).trans h0
      refine htaken ?_ hnone
      rw [lapseClaim_of_standing hs hc hpredicted (.inl hpending), setSection_lapsed, writeRecord_plain]
      exact requestCaution_eq hnone .lapse
    case request =>
      have hd : (retried (recorded s (denyRecord s a j .tooLate none)) j).cautionRequests = [] :=
        (retried_requests _ _).trans ((recorded_requests _ _).trans h0)
      have hnow := refused_now s (denyRecord s a j .tooLate none) j
      have hlapsed := lapseClaim_of_request hs hc hp hj
      rw [recordDenial_eq, setSection_lapsed, writeRecord_plain] at hlapsed
      generalize retried (recorded s (denyRecord s a j .tooLate none)) j = d at hd hnow hlapsed ⊢
      have hnone : (recorded (gone d) (plainRecord s a (.slot j) .lapse)).cautionRequests = [] :=
        (recorded_requests _ _).trans hd
      have hrecord : plainRecord (withoutClaim d a sec place) a c.car .lapse = plainRecord s a (.slot j) .lapse := by
        rw [hj]
        exact plainRecord_congr (t := withoutClaim d a sec place) hnow a _ _
      rw [hrecord] at hlapsed
      exact htaken (hlapsed.trans (requestCaution_eq hnone .lapse)) hnone

end Sys2Proof.Proofs.Lapses
end

section
/-! PROOFS. Decisions at the decide time: refusals, grants and contests (R105, R115, R144, R147 to R149). -/

namespace Sys2Proof.Proofs.Decisions

open Sys2Proof Sys2Proof.Machine Host Kept Arguments Nodes Lapses

/-! ### The facts a decision reads (R115, R148, R149) -/

theorem blind_iff (s : State) (sec : Section) : s.blind sec = true ↔ Blinded s sec := by
  unfold State.blind State.upstreamSilent Blinded
  rw [Bool.or_eq_true]
  refine or_congr_right ?_
  cases sec.map.linkA <;> cases sec.map.linkB <;> simp

theorem conflictSet_eq (sec : Section) (r : Claim) :
    sec.conflictSet r = sec.claims.filter fun d => decide (d.car ≠ r.car) && conflicts sec.map.guard r d :=
  List.filter_congr fun d _ => by simp [bne, beq_eq_decide]

theorem contestants_eq (sec : Section) {k : Slot} {c : Claim} (hk : c.car = .slot k) :
    sec.contestants c = (searchFrom sec.pointer).filter fun j =>
      decide (j = k) || (sec.conflictSet c).any fun d => decide (d.car = .slot j) && sec.eligible d := by
  unfold Section.contestants
  refine List.filter_congr fun j _ => ?_
  have hown : decide (c.car = .slot j) = decide (j = k) := by
    rw [hk]
    exact decide_eq_decide.mpr ⟨fun h => (CarRef.slot.inj h).symm, fun h => congrArg CarRef.slot h.symm⟩
  rw [hown, List.any_filter]
  refine congrArg _ (congrArg (List.any _) (funext fun d => Bool.and_comm _ _))

theorem claimsKept_of_allowed {s : State} (hk : ClaimListsKept s) (h : s.crossingAllowed = true) : ClaimsKept s :=
  (claimsKept_iff s).mpr ⟨hk, fun h1 h2 => by
    rw [(crossingAllowed_eq_false_iff s).mpr ⟨h1, h2⟩] at h
    exact nomatch h⟩

theorem crossingAllowed_iff (s : State) :
    s.crossingAllowed = true ↔ s.track = .run ∨ (s.track = .caution ∧ s.options.cautionLanes = .allow) := by
  unfold State.crossingAllowed
  cases s.track <;> simp

/-! ### The branches of a decision (R148, R149) -/

section Branches
variable {s : State} {a : Addr} {k : Slot} {sec : Section} {c : Claim}
variable (hs : s.sectionAt a = some sec) (hc : sec.claimOf k = some c)
include hs hc

theorem decideRequest_of_standing (hp : c.state ≠ .pending) : s.decideRequest a k = s := by
  unfold State.decideRequest
  simp only [hs, hc]
  exact if_pos hp

/-- A request PENDING where a crossing may be granted. -/
theorem decideRequest_of_request (hp : c.state = .pending) (ha : s.crossingAllowed = true) :
    s.decideRequest a k =
      if sec.admin ≠ .opened then s.deny a k .closed none
      else if s.blind sec then s.deny a k .blind none
      else match (sec.conflictSet c).find? fun d => decide (d.state ≠ .pending) with
        | some d => s.deny a k .conflict (some d.car)
        | none => if (sec.conflictSet c).isEmpty then s.grant a k else s.contest a k (sec.contestants c) := by
  unfold State.decideRequest
  simp only [hs, hc]
  exact (if_neg (not_not.mpr hp)).trans (if_neg (by rw [ha]; decide))

end Branches

/-- Every contestant has a PENDING claim, where the request's conflict set holds no other. -/
theorem contestant_claim {sec : Section} {k i : Slot} {c : Claim} (hu : SingleClaims sec.claims) (hc : sec.claimOf k = some c)
    (hp : c.state = .pending) (hnone : (sec.conflictSet c).find? (fun d => decide (d.state ≠ .pending)) = none)
    (hi : i ∈ sec.contestants c) : ∃ d, sec.claimOf i = some d ∧ d.state = .pending := by
  obtain ⟨hm, hk⟩ := claimOf_some hc
  rw [contestants_eq sec hk] at hi
  obtain hik | hrival := Bool.or_eq_true_iff.mp (List.mem_filter.mp hi).2
  · rw [of_decide_eq_true hik]
    exact ⟨c, hc, hp⟩
  · obtain ⟨d, hd, hcar⟩ := List.any_eq_true.mp hrival
    have hcar := of_decide_eq_true (Bool.and_eq_true_iff.mp hcar).1
    refine ⟨d, claimOf_eq hu (List.mem_filter.mp hd).1 hcar, ?_⟩
    simpa using List.find?_eq_none.mp hnone d hd

theorem claimOf_putClaim_other {sec : Section} {w i : Slot} {new : Claim} (hn : new.car = .slot w) (hi : i ≠ w) :
    (sec.putClaim w new).claimOf i = sec.claimOf i := by
  have hne : CarRef.slot w ≠ .slot i := fun h => hi (CarRef.slot.inj h).symm
  unfold Section.claimOf Section.putClaim
  dsimp only
  induction sec.claims with
  | nil => rfl
  | cons d l ih =>
    rw [List.map_cons, List.find?_cons, List.find?_cons, ih]
    by_cases hd : d.car = .slot w
    · rw [if_pos hd, hn, hd, beq_false_of_ne hne]
    · rw [if_neg hd]

/-- The losers of a contest, denied in their order (R149). -/
theorem foldl_losers {g : State} {a : Addr} {sec : Section} (hg : g.sectionAt a = some sec) (hu : SingleClaims sec.claims)
    {l : List Slot} (hn : l.Nodup) (hl : ∀ i ∈ l, ∃ d, sec.claimOf i = some d ∧ d.state ≠ .granted) (w : Slot) :
    l.foldl (fun s i => s.deny a i .contestLost (some (.slot w))) g
      = handed (denials g a (l.map fun i => ⟨i, .contestLost, some (.slot w)⟩)) (g.cautionRequests
          ++ lateSources (denialsRecords g a (l.map fun i => ⟨i, .contestLost, some (.slot w)⟩))) := by
  have h := foldl_deny a (l.map fun i => ⟨i, .contestLost, some (.slot w)⟩) g sec hg hu
    (by rw [List.map_map]; exact (List.map_id l).symm ▸ hn)
    (fun d hd => by
      obtain ⟨i, hi, rfl⟩ := List.mem_map.mp hd
      exact hl i hi)
  rw [List.foldl_map] at h
  exact h

theorem denialsRecords_handed (s : State) (q : List CautionSource) (a : Addr) (ds : List Denial) :
    denialsRecords (handed s q) a ds = denialsRecords s a ds := rfl

theorem foldl_losers_handed {g : State} {a : Addr} {sec : Section} (q : List CautionSource) (hg : g.sectionAt a = some sec)
    (hu : SingleClaims sec.claims) {l : List Slot} (hn : l.Nodup)
    (hl : ∀ i ∈ l, ∃ d, sec.claimOf i = some d ∧ d.state ≠ .granted) (w : Slot) :
    l.foldl (fun s i => s.deny a i .contestLost (some (.slot w))) (handed g q)
      = handed (denials g a (l.map fun i => ⟨i, .contestLost, some (.slot w)⟩))
        (q ++ lateSources (denialsRecords g a (l.map fun i => ⟨i, .contestLost, some (.slot w)⟩))) := by
  have h := foldl_losers (g := handed g q) hg hu hn hl w
  rw [denials_handed, denialsRecords_handed] at h
  exact h

theorem granted_requests (s : State) (a : Addr) (sec : Section) (k : Slot) (c : Claim) :
    (granted s a sec k c).cautionRequests = s.cautionRequests := recorded_requests _ _

theorem granted_sectionAt (s : State) (a : Addr) (sec : Section) (k : Slot) (c : Claim) :
    (granted s a sec k c).sectionAt a = some (sec.putClaim k
      { c with state := .granted, exitLane := c.kind.entryLane.other, decideTime := none }) := by
  have h : (granted s a sec k c).sections = _ := recorded_sections _ _
  unfold State.sectionAt
  rw [h]
  exact Vector.getElem_set_self _

/-- The contest of more than one: the winner granted, or denied BUS_BUSY, and then the others denied. -/
theorem contest_eq {s : State} {a : Addr} {k w j : Slot} {losers : List Slot} {sec : Section} (hs : s.sectionAt a = some sec) :
    s.contest a k (w :: j :: losers)
      = (j :: losers).foldl (fun s i => s.deny a i .contestLost (some (.slot w)))
        (({ s with sections := s.sections.set a (some { sec with pointer := w + 1 }) } : State).grant a w) := by
  have hmoved : s.advancePointer a w = { s with sections := s.sections.set a (some { sec with pointer := w + 1 }) } := by
    unfold State.advancePointer State.modifySection
    rw [hs]
    rfl
  show (j :: losers).foldl _ ((s.advancePointer a w).grant a w) = _
  rw [hmoved]

/-! ### The decide-time expiry (R144) -/

theorem exec_decideTimeExpiry (a : Addr) (k : Slot) (s : State) : exec (.decideTimeExpiry a k) s
    = s.take fun s => if s.decideDue a k then (s.decideRequest a k).takeCautionRequests else s := by
  unfold exec; rfl

theorem decideDue_of_claim {s : State} {a : Addr} {k : Slot} {sec : Section} {c : Claim} (hs : s.sectionAt a = some sec)
    (hc : sec.claimOf k = some c) : s.decideDue a k = true ↔
      c.state = .pending ∧ ∃ t, c.decideTime = some t ∧ Reached s.now t := by
  unfold State.decideDue
  simp only [hs, hc]
  rw [Bool.and_eq_true, decide_eq_true_iff]
  refine and_congr_right fun _ => ?_
  cases c.decideTime with
  | none =>
    refine ⟨nofun, ?_⟩
    rintro ⟨t, h, -⟩
    exact nomatch h
  | some t =>
    refine (expired_some_iff _ _).trans ⟨fun h => ⟨t, rfl, h⟩, ?_⟩
    rintro ⟨t', h, hr⟩
    exact Option.some.inj h ▸ hr

theorem decideDue_of_none {s : State} {a : Addr} {k : Slot} (h : ∀ sec, s.sectionAt a = some sec → sec.claimOf k = none) :
    ¬ s.decideDue a k = true := by
  unfold State.decideDue
  cases hs : s.sectionAt a with
  | none => exact nofun
  | some sec =>
    dsimp only
    rw [h sec hs]
    exact nofun

/-- Settles O44. -/
theorem decisionsAtTheDecideTime : Obligations.DecisionsAtTheDecideTime := by
  intro s a k hr h0 htrack hk run
  have hallowed := (crossingAllowed_iff s).mpr htrack
  have hrun : run = .next (if s.decideDue a k then (s.decideRequest a k).takeCautionRequests else s) :=
    (exec_decideTimeExpiry a k s).trans (take_of_running hr)
  refine ⟨fun hnot => ?early, fun sec c t hs hm hcar hp ht hreached => ?due⟩
  case early =>
    rw [hrun, if_neg]
    intro hdue
    cases hs : s.sectionAt a with
    | none => exact decideDue_of_none (fun sec h => nomatch hs.symm.trans h) hdue
    | some sec =>
      cases hc : sec.claimOf k with
      | none =>
        exact decideDue_of_none (fun sec' h => by obtain rfl := Option.some.inj (hs.symm.trans h); exact hc) hdue
      | some c =>
        obtain ⟨hm, hcar⟩ := claimOf_some hc
        obtain ⟨hp, t, ht, hreached⟩ := (decideDue_of_claim hs hc).mp hdue
        exact hnot sec hs c hm hcar hp t ht hreached
  case due =>
    intro denied rivals waiting contestants
    have hu : SingleClaims sec.claims := hk.single hs
    have hc : sec.claimOf k = some c := claimOf_eq hu hm hcar
    have hdecide : run = .next (s.decideRequest a k).takeCautionRequests :=
      hrun.trans (congrArg Outcome.next (if_pos ((decideDue_of_claim hs hc).mpr ⟨hp, t, ht, hreached⟩)))
    have hbranch := decideRequest_of_request hs hc hp hallowed
    have htaken {u : State} {l : List CautionSource} (hq : s.decideRequest a k = handed u l) (hu0 : u.cautionRequests = []) :
        run = .next (cautionAfter u l) :=
      hdecide.trans (congrArg Outcome.next (take_operation (decideRequest_arbitrated s a k)
        (fun h => decideRequest_kept h a k) hq hu0 hk))
    have hdenied {r : DenyReason} {other : Option CarRef} (hq : s.decideRequest a k = s.deny a k r other) : denied r other := by
      refine htaken ?_ ((denials_cautionRequests s a _).trans h0)
      rw [hq, deny_eq s a ⟨k, r, other⟩ sec c hs hc (by rw [hp]; decide) hu, h0, List.nil_append]
    have hset (r : Claim) : rivals r = sec.conflictSet r := (conflictSet_eq sec r).symm
    have hcontestants : contestants = sec.contestants c := by
      have heligible (d : Claim) : waiting (rivals d) = sec.eligible d := by
        rw [hset]
        rfl
      show List.filter (fun j => decide (j = k) || (rivals c).any fun d => decide (d.car = .slot j) && waiting (rivals d)) _ = _
      simp only [heligible]
      rw [contestants_eq sec hcar, ← hset]
      rfl
    have hopen (h : sec.admin = .opened) (hb : ¬ Blinded s sec) : s.decideRequest a k =
        match (rivals c).find? fun d => decide (d.state ≠ .pending) with
        | some d => s.deny a k .conflict (some d.car)
        | none => if (rivals c).isEmpty then s.grant a k else s.contest a k contestants := by
      rw [hbranch, if_neg (not_not.mpr h), if_neg (mt (blind_iff s sec).mp hb), hset, hcontestants]
    have hnone (hw : waiting (rivals c) = true) : (rivals c).find? (fun d => decide (d.state ≠ .pending)) = none :=
      List.find?_eq_none.mpr fun d hd => by simpa using List.all_eq_true.mp hw d hd
    refine ⟨fun h => ?closed, fun h hb => ?blind, fun h hb d hd => ?conflict, fun h hb hfree => ?grants,
      fun h hb hw hne w j losers cw hcon hcw hwcar => ?contest⟩
    case closed => exact hdenied (hbranch.trans (if_pos h))
    case blind => exact hdenied (hbranch.trans ((if_neg (not_not.mpr h)).trans (if_pos ((blind_iff s sec).mpr hb))))
    case conflict => exact hdenied ((hopen h hb).trans (by rw [hd]))
    case grants =>
      have hgrant : s.decideRequest a k = s.grant a k := by
        rw [hopen h hb]
        obtain hempty | ⟨hw, hone⟩ := hfree
        · rw [hempty]
          rfl
        · rw [hnone hw, hone]
          exact ite_self _
      refine ⟨fun hroom => ?_, fun hfull => ?_⟩
      · have hgranted := hgrant.trans (grant_eq s a k sec c hs hc hroom)
        have hrequests := (granted_requests s a sec k c).trans h0
        rw [hdecide, hgranted, takeCautionRequests_nil _ hrequests]
      · exact hdenied (hgrant.trans (grant_of_full s a k (Nat.not_lt.mpr hfull)))
    case contest =>
      intro sec' moved lost
      have hcontest : s.decideRequest a k
          = (j :: losers).foldl (fun s i => s.deny a i .contestLost (some (.slot w))) (moved.grant a w) := by
        rw [hopen h hb, hnone hw, hcon]
        refine (if_neg (by rwa [List.isEmpty_iff])).trans (contest_eq hs)
      have hpending : ∀ i ∈ w :: j :: losers, ∃ d, sec'.claimOf i = some d ∧ d.state = .pending := by
        intro i hi
        rw [← hcon, hcontestants] at hi
        have hpending := contestant_claim hu hc hp (by rw [← hset]; exact hnone hw) hi
        exact hpending
      have hnodup : (w :: j :: losers).Nodup := by
        rw [← hcon, hcontestants]
        exact contestants_nodup sec c
      obtain ⟨hwout, hnlost⟩ := List.nodup_cons.mp hnodup
      have hwclaim : sec'.claimOf w = some cw := claimOf_eq (sec := sec') hu hcw hwcar
      have hmoved : moved.sectionAt a = some sec' := Vector.getElem_set_self _
      have hother {i : Slot} (hi : i ∈ j :: losers) : i ≠ w := fun h => hwout (h ▸ hi)
      refine ⟨fun hroom => ?_, fun hfull => ?_⟩
      · intro g
        have hg : moved.grant a w = g := grant_eq moved a w sec' cw hmoved hwclaim hroom
        have hlosers := foldl_losers (granted_sectionAt moved a sec' w cw) (putClaim_single hu hwcar) hnlost (fun i hi => by
          obtain ⟨d, hd, hdp⟩ := hpending i (List.mem_cons_of_mem w hi)
          have hput : (sec'.putClaim w { cw with
              state := .granted, exitLane := cw.kind.entryLane.other, decideTime := none }).claimOf i = sec'.claimOf i :=
            claimOf_putClaim_other hwcar (hother hi)
          exact ⟨d, hput.trans hd, by rw [hdp]; decide⟩) w
        have hg0 : g.cautionRequests = [] := (granted_requests moved a sec' w cw).trans h0
        refine htaken ?_ ((denials_cautionRequests g a lost).trans hg0)
        rw [hcontest, hg]
        refine hlosers.trans ?_
        rw [show (granted moved a sec' w cw).cautionRequests = [] from hg0]
        rfl
      · intro g
        have hcwp : cw.state ≠ .granted := by
          obtain ⟨d, hd, hdp⟩ := hpending w List.mem_cons_self
          obtain rfl := Option.some.inj (hwclaim.symm.trans hd)
          rw [hdp]
          decide
        have hg : moved.grant a w = handed g (lateSources (denialsRecords moved a [⟨w, .busBusy, none⟩])) := by
          rw [grant_of_full moved a w (Nat.not_lt.mpr hfull),
            deny_eq moved a ⟨w, .busBusy, none⟩ sec' cw hmoved hwclaim hcwp hu, show moved.cautionRequests = [] from h0]
          rfl
        have hlosers := foldl_losers_handed (lateSources (denialsRecords moved a [⟨w, .busBusy, none⟩]))
          (denials_section moved a [⟨w, .busBusy, none⟩] sec' hmoved) (afterDenials_single _ hu) hnlost (fun i hi => by
            obtain ⟨d, hd, hdp⟩ := hpending i (List.mem_cons_of_mem w hi)
            exact ⟨d, (afterDenials_claimOf moved sec' ⟨w, .busBusy, none⟩ i (hother hi)).trans hd, by rw [hdp]; decide⟩) w
        have hg0 : g.cautionRequests = [] := (denials_cautionRequests moved a _).trans h0
        rw [lateSources_append]
        refine htaken ?_ ((denials_cautionRequests g a lost).trans hg0)
        rw [hcontest, hg]
        exact hlosers

end Sys2Proof.Proofs.Decisions
end

section
/-! PROOFS. The steps of a sighting before the arm is read: the inference close, the position update, the exit and the
entry (R119 to R123). -/

namespace Sys2Proof.Proofs.Sightings

open Sys2Proof Sys2Proof.Machine Host Kept Arguments Console Bindings Lapses

/-! ### Records, arms and sections together -/

/-- What a run of the arbiter's steps changes: records written, arms taken, section records replaced. -/
def closing (s : State) (ds : List Decision) (f : Slot → Bool) (v : Vector (Option Section) 15) : State :=
  { withQueue s (queued s ds) with cars := disarmed s f, sections := v }

theorem closing_then (s : State) (ds es : List Decision) (f g : Slot → Bool) (v w : Vector (Option Section) 15) :
    closing (closing s ds f v) es g w = closing s (ds ++ es) (fun j => f j || g j) w := by
  have hqueue := queued_withQueue s (closing s ds f v) ds es rfl rfl rfl
  have hcars := disarmed_twice s (closing s ds f v) f g rfl
  unfold closing at hqueue hcars ⊢
  rw [hqueue, hcars]
  rfl

theorem closing_none (s : State) : closing s [] (fun _ => false) s.sections = s := by
  unfold closing
  rw [disarmed_none]
  rfl

theorem closing_records (s : State) (ds : List Decision) : closing s ds (fun _ => false) s.sections = recordedAll s ds := by
  unfold closing
  rw [disarmed_none, recordedAll_eq]
  rfl

theorem closing_setSection (s : State) (ds : List Decision) (f : Slot → Bool) (v : Vector (Option Section) 15) (a : Addr)
    (o : Option Section) : (closing s ds f v).setSection a o = closing s ds f (v.set a o) := rfl

theorem disarmed_output (s : State) (f : Slot → Bool) (k : Slot) : (disarmed s f)[k].output = (s.car k).output := by
  rw [disarmed_get]
  split <;> rfl

/-! ### The records of a claim that ends (R120, R121, R146) -/

theorem recordDenial_closing (t : State) (b : Addr) (k : Slot) (r : DenyReason) :
    t.recordDenial b k r none = closing t [denyRecord t b k r none] (fun j => decide (k = j)) t.sections := by
  rw [recordDenial_eq, retried_eq, recorded_eq, recordedAll_eq]
  rfl

theorem writeRecord_closing (t : State) (b : Addr) (car : CarRef) (o : DecisionOutcome) :
    t.writeRecord b car o none none false = closing t [plainRecord t b car o] (fun _ => false) t.sections := by
  rw [closing_records]
  rfl

theorem denyLeaving_eq (t : State) (b : Addr) (k : Slot) (c : Claim) :
    t.denyLeaving b k c = closing t (if c.state = .pending then [denyRecord t b k .tooLate none] else [])
      (fun j => decide (j = k) && decide (c.state = .pending)) t.sections := by
  unfold State.denyLeaving
  split_ifs with hp
  · rw [recordDenial_closing]
    refine congrArg (fun f => closing t _ f t.sections) (funext fun j => ?_)
    rw [decide_eq_true hp, Bool.and_true]
    exact decide_eq_decide.mpr eq_comm
  · rw [show (fun j : Slot => decide (j = k) && decide (c.state = .pending)) = fun _ => false from
      funext fun j => by rw [decide_eq_false hp, Bool.and_false], closing_none]

/-- A claim that ends at a sighting, as a PENDING one is denied and its lane tested. -/
theorem endTests_eq (t : State) (b : Addr) (k : Slot) (c : Claim) (lane : Lane) :
    (t.denyLeaving b k c).laneTest b k c lane = closing t (endingRecords t b k lane (some c))
      (fun j => decide (j = k) && decide (c.state = .pending)) t.sections := by
  rw [denyLeaving_eq]
  generalize hd : (if c.state = .pending then [denyRecord t b k .tooLate none] else []) = ds
  unfold State.laneTest endingRecords
  dsimp only
  rw [hd]
  by_cases hl : c.exitLane = lane
  · rw [if_pos hl, if_pos hl, List.append_nil]
  · rw [if_neg hl, if_neg hl, writeRecord_closing, closing_then]
    simp only [Bool.or_false]
    exact rfl

/-! ### The inference close (R120) -/

/-- The section record at b after a sighting has ended its claim of slot k. -/
def endedAt (s : State) (a : Addr) (e : Bool) (k : Slot) (b : Addr) : Option Section :=
  if (endingClaim s a e k b).isSome then
    (s.sectionAt b).map fun sec => afterRemoval sec (sec.claims.filter fun c => decide (c.car ≠ .slot k))
  else s.sectionAt b

theorem endingClaim_congr {s t : State} {b : Addr} (h : t.sectionAt b = s.sectionAt b) (a : Addr) (e : Bool) (k : Slot) :
    endingClaim t a e k b = endingClaim s a e k b := by
  unfold endingClaim
  rw [h]

theorem endedAt_congr {s t : State} {b : Addr} (h : t.sectionAt b = s.sectionAt b) (a : Addr) (e : Bool) (k : Slot) :
    endedAt t a e k b = endedAt s a e k b := by
  unfold endedAt
  rw [endingClaim_congr h, h]

theorem endingRecords_congr {s t : State} (h : t.now = s.now) (b : Addr) (k : Slot) (lane : Lane) (c : Option Claim) :
    endingRecords t b k lane c = endingRecords s b k lane c := by
  unfold endingRecords denyRecord plainRecord
  rw [h]

theorem removeSlot_eq (sec : Section) (k : Slot) :
    sec.removeSlot k = afterRemoval sec (sec.claims.filter fun c => decide (c.car ≠ .slot k)) := by
  have hf : (sec.claims.filter fun c => c.car != .slot k) = sec.claims.filter fun c => decide (c.car ≠ .slot k) :=
    List.filter_congr fun c _ => by simp [bne, beq_eq_decide]
  unfold Section.removeSlot
  rw [removeTo_eq, hf]

theorem endedAt_none {s : State} {a b : Addr} {e : Bool} {k : Slot} (h : endingClaim s a e k b = none) :
    endedAt s a e k b = s.sectionAt b := by
  unfold endedAt
  rw [h]
  rfl

theorem closing_unended {t : State} {a b : Addr} {e : Bool} {k : Slot} (lane : Lane) (h : endingClaim t a e k b = none) :
    closing t (endingRecords t b k lane (endingClaim t a e k b))
      (fun j => decide (j = k) && (endingClaim t a e k b).any fun c => decide (c.state = .pending))
      (t.sections.set b (endedAt t a e k b)) = t := by
  have hself : t.sections.set b (t.sectionAt b) = t.sections := Vector.set_getElem_self ..
  have hcars : (fun j : Slot => decide (j = k) && (none : Option Claim).any fun c => decide (c.state = .pending))
      = fun _ => false := funext fun _ => Bool.and_false _
  rw [endedAt_none h, h, hself, hcars]
  exact closing_none t

theorem closeByInference_eq (t : State) {a b : Addr} (hb : b ≠ a) (e : Bool) (k : Slot) (lane : Lane) :
    t.closeByInference k lane b = closing t (endingRecords t b k lane (endingClaim t a e k b))
      (fun j => decide (j = k) && (endingClaim t a e k b).any fun c => decide (c.state = .pending))
      (t.sections.set b (endedAt t a e k b)) := by
  cases hs : t.sectionAt b with
  | none =>
    have hend : endingClaim t a e k b = none := by
      unfold endingClaim
      rw [hs]
    rw [closing_unended lane hend]
    unfold State.closeByInference
    rw [hs]
  | some sec =>
    cases hc : sec.claimOf k with
    | none =>
      have hend : endingClaim t a e k b = none := by
        unfold endingClaim
        simp only [hs, hc]
      rw [closing_unended lane hend]
      unfold State.closeByInference
      simp only [hs, hc]
    | some c =>
      by_cases hp : c.state = .predicted
      · have hend : endingClaim t a e k b = none := by
          unfold endingClaim
          simp only [hs, hc, if_neg hb]
          exact if_neg (not_not.mpr hp)
        rw [closing_unended lane hend]
        unfold State.closeByInference
        simp only [hs, hc]
        exact if_pos hp
      · have hend : endingClaim t a e k b = some c := by
          unfold endingClaim
          simp only [hs, hc, if_neg hb]
          exact if_pos hp
        have hended : endedAt t a e k b
            = some (afterRemoval sec (sec.claims.filter fun c => decide (c.car ≠ .slot k))) := by
          unfold endedAt
          rw [hend, hs]
          rfl
        have hmodel : t.closeByInference k lane b
            = ((t.denyLeaving b k c).laneTest b k c lane).modifySection b fun sec => sec.removeSlot k := by
          unfold State.closeByInference
          simp only [hs, hc]
          exact if_neg hp
        rw [hmodel, endTests_eq, hend, hended, ← removeSlot_eq, State.modifySection,
          show (closing t (endingRecords t b k lane (some c)) _ t.sections).sectionAt b = some sec from hs,
          closing_setSection]
        rfl

theorem closing_sectionAt (s : State) (ds : List Decision) (f : Slot → Bool) (g : Addr → Option Section) (b : Addr) :
    (closing s ds f (Vector.ofFn g)).sectionAt b = g b := Vector.getElem_ofFn b.isLt

theorem ofFn_set {α : Type} {n : Nat} (g h : Fin n → α) (b : Fin n) (hg : ∀ x, x ≠ b → h x = g x) :
    (Vector.ofFn g).set b (h b) = Vector.ofFn h := by
  ext i hi
  rw [Vector.getElem_set, Vector.getElem_ofFn, Vector.getElem_ofFn]
  split_ifs with hb
  · exact congrArg h (Fin.ext hb)
  · exact (hg ⟨i, hi⟩ fun e => hb (congrArg Fin.val e).symm).symm

/-- The inference close over some sections, none of them the sighting's. -/
theorem foldl_closeByInference (s : State) {a : Addr} (e : Bool) (k : Slot) (lane : Lane) {l : List Addr} (hn : l.Nodup)
    (ha : a ∉ l) :
    l.foldl (fun s b => s.closeByInference k lane b) s
      = closing s (l.flatMap fun b => endingRecords s b k lane (endingClaim s a e k b))
        (fun j => decide (j = k) && l.any fun b => (endingClaim s a e k b).any fun c => decide (c.state = .pending))
        (Vector.ofFn fun b => if b ∈ l then endedAt s a e k b else s.sectionAt b) := by
  induction l using List.reverseRecOn with
  | nil =>
    have hsections : (Vector.ofFn fun b : Addr => if b ∈ ([] : List Addr) then endedAt s a e k b else s.sectionAt b)
        = s.sections := by
      ext i hi
      rw [Vector.getElem_ofFn, if_neg List.not_mem_nil]
      rfl
    rw [hsections]
    refine (closing_none s).symm.trans ?_
    refine congrArg (fun f => closing s [] f s.sections) (funext fun j => ?_)
    exact (Bool.and_false _).symm
  | append_singleton l b ih =>
    have hnl : l.Nodup := (List.nodup_append.mp hn).1
    have hbl : b ∉ l := fun h => (List.nodup_append.mp hn).2.2 b h b (List.mem_singleton.mpr rfl) rfl
    have hba : b ≠ a := fun h => ha (h ▸ List.mem_append_right l (List.mem_singleton.mpr rfl))
    have hal : a ∉ l := fun h => ha (List.mem_append_left _ h)
    rw [List.foldl_append, ih hnl hal, List.foldl_cons, List.foldl_nil]
    generalize ht : closing s (l.flatMap fun b => endingRecords s b k lane (endingClaim s a e k b)) _ _ = t
    have hsame : t.sectionAt b = s.sectionAt b := by
      rw [← ht, closing_sectionAt, if_neg hbl]
    have hnow : t.now = s.now := by rw [← ht]; rfl
    have hsections : t.sections = Vector.ofFn fun b => if b ∈ l then endedAt s a e k b else s.sectionAt b := by
      rw [← ht]
      rfl
    have hset := ofFn_set (fun x => if x ∈ l then endedAt s a e k x else s.sectionAt x)
      (fun x => if x ∈ l ++ [b] then endedAt s a e k x else s.sectionAt x) b fun x hx =>
        if_congr (by simp [hx]) rfl rfl
    rw [if_pos (List.mem_append_right l (List.mem_singleton.mpr rfl))] at hset
    rw [closeByInference_eq t hba e, endingClaim_congr hsame, endingRecords_congr hnow, endedAt_congr hsame, hsections, hset,
      ← ht, closing_then, List.flatMap_append, List.flatMap_singleton]
    refine congrArg (fun f => closing s _ f _) (funext fun j => ?_)
    rw [← Bool.and_or_distrib_left, List.any_append, List.any_cons, List.any_nil, Bool.or_false]

/-! ### The position update (R121) -/

theorem endingClaim_here {s : State} {a : Addr} {k : Slot} {sec : Section} {c : Claim} (e : Bool)
    (hs : s.sectionAt a = some sec) (hc : sec.claimOf k = some c) :
    endingClaim s a e k a = if e = true then some c else none := by
  unfold endingClaim
  simp only [hs, hc]
  exact if_congr (by simp) rfl rfl

theorem endingClaim_elsewhere {s : State} {a b : Addr} {k : Slot} {sec : Section} {c : Claim} (e : Bool) (hb : b ≠ a)
    (hs : s.sectionAt b = some sec) (hc : sec.claimOf k = some c) :
    endingClaim s a e k b = if c.state ≠ .predicted then some c else none := by
  unfold endingClaim
  simp only [hs, hc]
  exact if_congr (by rw [if_neg hb]) rfl rfl

theorem endingClaim_of_none {s : State} {b : Addr} {k : Slot} {sec : Section} (a : Addr) (e : Bool)
    (hs : s.sectionAt b = some sec) (hc : sec.claimOf k = none) : endingClaim s a e k b = none := by
  unfold endingClaim
  simp only [hs, hc]

theorem endingClaim_absent {s : State} {b : Addr} (hs : s.sectionAt b = none) (a : Addr) (e : Bool) (k : Slot) :
    endingClaim s a e k b = none := by
  unfold endingClaim
  rw [hs]

theorem endingClaim_own (s : State) (a : Addr) (k : Slot) : endingClaim s a false k a = none := by
  cases hs : s.sectionAt a with
  | none => exact endingClaim_absent hs a false k
  | some sec =>
    cases hc : sec.claimOf k with
    | none => exact endingClaim_of_none a false hs hc
    | some c => exact (endingClaim_here false hs hc).trans (if_neg Bool.false_ne_true)

theorem endingClaim_exit {s : State} {a : Addr} {k : Slot} {sec : Section} (hs : s.sectionAt a = some sec) :
    endingClaim s a true k a = sec.claimOf k := by
  cases hc : sec.claimOf k with
  | none => exact endingClaim_of_none a true hs hc
  | some c => exact (endingClaim_here true hs hc).trans (if_pos rfl)

/-- Nothing of a claim that does not end. -/
theorem closing_no_claim {t : State} {c : Option Claim} (b : Addr) (k : Slot) (lane : Lane) (h : c = none) :
    closing t (endingRecords t b k lane c) (fun j => decide (j = k) && c.any fun c => decide (c.state = .pending)) t.sections
      = t := by
  subst h
  refine .trans (congrArg (fun f => closing t [] f t.sections) (funext fun j => ?_)) (closing_none t)
  exact Bool.and_false _

/-- The lane test of an exit; of another sighting, nothing. -/
theorem exitLaneTest_eq (t : State) (x : Sighting) (k : Slot) :
    (if x.isExit then t.exitLaneTest x k else t)
      = closing t (endingRecords t x.node k x.lane (endingClaim t x.node x.isExit k x.node))
        (fun j => decide (j = k) && (endingClaim t x.node x.isExit k x.node).any fun c => decide (c.state = .pending))
        t.sections := by
  cases he : x.isExit with
  | false => exact (closing_no_claim _ _ _ (endingClaim_own t x.node k)).symm
  | true =>
    refine (if_pos rfl).trans ?_
    unfold State.exitLaneTest
    cases hs : t.sectionAt x.node with
    | none => exact (closing_no_claim _ _ _ (endingClaim_absent hs x.node true k)).symm
    | some sec =>
      have hend := endingClaim_exit (k := k) hs
      dsimp only
      cases hc : sec.claimOf k with
      | none => exact (closing_no_claim _ _ _ (hend.trans hc)).symm
      | some c =>
        rw [hend, hc]
        exact endTests_eq t x.node k c x.lane

theorem expectedLaneTest_eq (t : State) (x : Sighting) (k : Slot) (compared : Bool) :
    t.expectedLaneTest x k compared
      = closing t (expectedLaneRecords t k x.lane compared) (fun _ => false) t.sections := by
  unfold State.expectedLaneTest expectedLaneRecords
  cases (t.position k).expectedLane with
  | none => exact (closing_none t).symm
  | some l =>
    cases (t.position k).lastNode with
    | none => exact (closing_none t).symm
    | some n =>
      dsimp only
      by_cases h : compared = false ∧ l ≠ x.lane
      · rw [if_pos h, if_pos h, writeRecord_closing]
      · rw [if_neg h, if_neg h, closing_none]

theorem expectedLaneRecords_congr {s t : State} (hp : t.positions = s.positions) (hn : t.now = s.now) (k : Slot) (lane : Lane)
    (compared : Bool) : expectedLaneRecords t k lane compared = expectedLaneRecords s k lane compared := by
  unfold expectedLaneRecords State.position plainRecord
  rw [hp, hn]

/-! ### The claims compared (R120, R121) -/

theorem endingClaim_granted (s : State) (a : Addr) (e : Bool) (k : Slot) (b : Addr) :
    ((endingClaim s a e k b).any fun c => decide (c.state = .granted))
      = if b = a then e && s.holdsGranted k b else s.holdsGranted k b := by
  have hnot (hs : ∀ sec, s.sectionAt b = some sec → sec.claimOf k = none) : s.holdsGranted k b = false := by
    unfold State.holdsGranted
    split
    · rfl
    · next sec h => rw [hs sec h]
  have hfalse : (if b = a then e && false else false) = false := by
    rw [Bool.and_false]
    exact ite_self _
  cases hs : s.sectionAt b with
  | none =>
    rw [endingClaim_absent hs, hnot fun sec h => nomatch hs.symm.trans h]
    exact hfalse.symm
  | some sec =>
    cases hc : sec.claimOf k with
    | none =>
      rw [endingClaim_of_none a e hs hc, hnot fun sec' h => by rw [← Option.some.inj (hs.symm.trans h)]; exact hc]
      exact hfalse.symm
    | some c =>
      have hholds : s.holdsGranted k b = decide (c.state = .granted) := by
        unfold State.holdsGranted
        simp only [hs, hc]
      rw [hholds]
      by_cases hb : b = a
      · subst hb
        rw [endingClaim_here e hs hc, if_pos rfl]
        cases e <;> rfl
      · rw [endingClaim_elsewhere e hb hs hc, if_neg hb]
        by_cases hp : c.state = .predicted
        · rw [if_neg (not_not.mpr hp), hp]
          rfl
        · rw [if_pos hp]
          rfl

theorem comparesGranted_eq (s : State) (x : Sighting) (k : Slot) :
    s.comparesGranted x k
      = allAddrs.any fun b => (endingClaim s x.node x.isExit k b).any fun c => decide (c.state = .granted) := by
  simp only [endingClaim_granted]
  unfold State.comparesGranted
  rw [Bool.eq_iff_iff, Bool.or_eq_true, List.any_eq_true, List.any_eq_true]
  constructor
  · rintro (⟨b, hb, h⟩ | h)
    · obtain ⟨hne, hg⟩ := Bool.and_eq_true_iff.mp h
      exact ⟨b, hb, by rwa [if_neg (bne_iff_ne.mp hne)]⟩
    · exact ⟨x.node, mem_allAddrs _, by rwa [if_pos rfl]⟩
  · rintro ⟨b, hb, h⟩
    by_cases hx : b = x.node
    · subst hx
      rw [if_pos rfl] at h
      exact .inr h
    · rw [if_neg hx] at h
      exact .inl ⟨b, hb, Bool.and_eq_true_iff.mpr ⟨bne_iff_ne.mpr hx, h⟩⟩

/-! ### The sighting up to its claim (R119 to R123) -/

/-- The order in which a sighting's ending claims are handled. -/
theorem any_order (a : Addr) (p : Addr → Bool) :
    ((allAddrs.filter fun b => decide (b ≠ a)).any p || p a) = allAddrs.any p := by
  rw [Bool.eq_iff_iff, Bool.or_eq_true, List.any_eq_true, List.any_eq_true]
  constructor
  · rintro (⟨b, hb, h⟩ | h)
    · exact ⟨b, (List.mem_filter.mp hb).1, h⟩
    · exact ⟨a, mem_allAddrs a, h⟩
  · rintro ⟨b, hb, h⟩
    by_cases hx : b = a
    · exact .inr (hx ▸ h)
    · exact .inl ⟨b, List.mem_filter.mpr ⟨hb, decide_eq_true hx⟩, h⟩

/-- The state after the inference close and the position update. -/
def tracked (s : State) (x : Sighting) (k : Slot) : State :=
  (s.inferenceClose x k).updatePosition x k (s.comparesGranted x k)

/-- Its closed form, `v` the section records. -/
def trackedAs (s : State) (x : Sighting) (k : Slot) (v : Vector (Option Section) 15) : State :=
  let ending := endingClaim s x.node x.isExit k
  let any (p : Claim → Bool) : Bool := allAddrs.any fun b => (ending b).any p
  let order := allAddrs.filter (fun b => decide (b ≠ x.node)) ++ [x.node]
  { closing s (order.flatMap (fun b => endingRecords s b k x.lane (ending b))
        ++ expectedLaneRecords s k x.lane (any fun c => decide (c.state = .granted)))
      (fun j => decide (j = k) && any fun c => decide (c.state = .pending)) v with
    positions := s.positions.set k
      { lastNode := some x.node, lastLane := some x.lane, lastSensor := some x.sensor, lastSeen := some x.sense
        level := some (s.car k).output, expectedLane := none } }

theorem inferenceClose_eq (s : State) (x : Sighting) (k : Slot) :
    s.inferenceClose x k = (allAddrs.filter fun b => decide (b ≠ x.node)).foldl (fun s b => s.closeByInference k x.lane b) s := by
  have hf : (allAddrs.filter fun b => b != x.node) = allAddrs.filter fun b => decide (b ≠ x.node) :=
    List.filter_congr fun b _ => by simp [bne, beq_eq_decide]
  unfold State.inferenceClose
  rw [hf]

/-- The position update, on what the inference close has left. -/
theorem updatePosition_eq (s : State) (x : Sighting) (k : Slot) (compared : Bool) {ds : List Decision} {f : Slot → Bool}
    {v : Vector (Option Section) 15} (hv : v[x.node] = s.sectionAt x.node) :
    (closing s ds f v).updatePosition x k compared =
      { closing s (ds ++ endingRecords s x.node k x.lane (endingClaim s x.node x.isExit k x.node)
            ++ expectedLaneRecords s k x.lane compared)
          (fun j => f j || (decide (j = k)
            && (endingClaim s x.node x.isExit k x.node).any fun c => decide (c.state = .pending))) v with
        positions := s.positions.set k
          { lastNode := some x.node, lastLane := some x.lane, lastSensor := some x.sensor, lastSeen := some x.sense
            level := some (s.car k).output, expectedLane := none } } := by
  have hexit : (if x.isExit then (closing s ds f v).exitLaneTest x k else closing s ds f v)
      = closing s (ds ++ endingRecords s x.node k x.lane (endingClaim s x.node x.isExit k x.node))
        (fun j => f j || (decide (j = k)
          && (endingClaim s x.node x.isExit k x.node).any fun c => decide (c.state = .pending))) v := by
    rw [exitLaneTest_eq, endingClaim_congr (t := closing s ds f v) hv, endingRecords_congr (s := s) rfl]
    exact closing_then ..
  unfold State.updatePosition
  dsimp only
  rw [hexit]
  generalize ds ++ endingRecords s x.node k x.lane (endingClaim s x.node x.isExit k x.node) = es
  generalize (fun j => f j || (decide (j = k)
    && (endingClaim s x.node x.isExit k x.node).any fun c => decide (c.state = .pending))) = g
  have hlane : (closing s es g v).expectedLaneTest x k compared = closing s (es ++ expectedLaneRecords s k x.lane compared) g v := by
    rw [expectedLaneTest_eq, expectedLaneRecords_congr (s := s) rfl rfl]
    refine (closing_then ..).trans (congrArg (fun g => closing s _ g v) (funext fun j => Bool.or_false _))
  rw [hlane]
  have hlevel := disarmed_output s g k
  unfold State.seen State.setPosition
  rw [show ((closing s (es ++ expectedLaneRecords s k x.lane compared) g v).car k).output = (s.car k).output from hlevel]
  rfl

theorem tracked_eq (s : State) (x : Sighting) (k : Slot) :
    tracked s x k = trackedAs s x k
      (Vector.ofFn fun b => if b ≠ x.node then endedAt s x.node x.isExit k b else s.sectionAt b) := by
  have hclose := foldl_closeByInference s (a := x.node) x.isExit k x.lane
    (l := allAddrs.filter fun b => decide (b ≠ x.node)) ((by decide : allAddrs.Nodup).filter _)
    fun h => of_decide_eq_true (List.mem_filter.mp h).2 rfl
  have hvector : (Vector.ofFn fun b => if b ∈ allAddrs.filter (fun b => decide (b ≠ x.node))
        then endedAt s x.node x.isExit k b else s.sectionAt b)
      = Vector.ofFn fun b => if b ≠ x.node then endedAt s x.node x.isExit k b else s.sectionAt b :=
    congrArg Vector.ofFn (funext fun b => if_congr (by simp [mem_allAddrs]) rfl rfl)
  rw [hvector] at hclose
  have hflag : (fun j : Slot => (decide (j = k) && (allAddrs.filter fun b => decide (b ≠ x.node)).any fun b =>
        (endingClaim s x.node x.isExit k b).any fun c => decide (c.state = .pending))
      || (decide (j = k) && (endingClaim s x.node x.isExit k x.node).any fun c => decide (c.state = .pending)))
      = fun j => decide (j = k) && allAddrs.any fun b =>
        (endingClaim s x.node x.isExit k b).any fun c => decide (c.state = .pending) := by
    funext j
    rw [← Bool.and_or_distrib_left, ← any_order x.node]
  have hnode : (Vector.ofFn fun b => if b ≠ x.node then endedAt s x.node x.isExit k b else s.sectionAt b)[x.node]
      = s.sectionAt x.node := (Vector.getElem_ofFn x.node.isLt).trans (if_neg fun h => h rfl)
  unfold tracked
  rw [inferenceClose_eq, hclose, comparesGranted_eq, updatePosition_eq s x k _ hnode, hflag]
  unfold trackedAs
  simp only [List.flatMap_append, List.flatMap_singleton]

/-- The sighting's fields, as its section or gate hands them. -/
theorem isExit_eq (x : Sighting) : x.isExit = decide (x.role = .sect ∧ x.sensor = .exit) := (Bool.decide_and ..).symm

/-- A sighting with its claims ended is the tracked one with every section record as it ends. -/
theorem sighted_eq (s : State) (x : Sighting) (k : Slot) (hr : x.role = (s.node x.node).role) :
    sighted s x.node x.sensor x.lane x.sense k
      = trackedAs s x k (Vector.ofFn (endedAt s x.node x.isExit k)) := by
  unfold sighted trackedAs
  dsimp only
  rw [recordedAll_eq, isExit_eq, hr]
  rfl

theorem tracked_sighted {s : State} {x : Sighting} (k : Slot) (hr : x.role = (s.node x.node).role) (he : x.isExit = false) :
    tracked s x k = sighted s x.node x.sensor x.lane x.sense k := by
  rw [sighted_eq s x k hr, tracked_eq, he]
  refine congrArg (fun g => trackedAs s x k (Vector.ofFn g)) (funext fun b => ?_)
  by_cases hb : b = x.node
  · rw [if_neg (not_not.mpr hb), hb, endedAt_none (endingClaim_own s x.node k)]
  · rw [if_pos hb]

theorem leave_eq (t : State) (x : Sighting) (k : Slot) :
    t.leave x k = t.setSection x.node (endedAt t x.node true k x.node) := by
  unfold State.leave
  cases hs : t.sectionAt x.node with
  | none =>
    rw [endedAt_none (endingClaim_absent hs x.node true k)]
    exact (Timers.setSection_self t x.node).symm
  | some sec =>
    dsimp only
    have hend := endingClaim_exit (k := k) hs
    cases hc : sec.claimOf k with
    | none =>
      rw [endedAt_none (hend.trans hc)]
      exact (Timers.setSection_self t x.node).symm
    | some c =>
      dsimp only
      unfold endedAt
      rw [hend, hc, hs, removeSlot_eq]
      rfl

theorem leave_sighted {s : State} {x : Sighting} (k : Slot) (hr : x.role = (s.node x.node).role) (he : x.isExit = true) :
    (tracked s x k).leave x k = sighted s x.node x.sensor x.lane x.sense k := by
  have hset := ofFn_set (fun b => if b ≠ x.node then endedAt s x.node true k b else s.sectionAt b)
    (fun b => endedAt s x.node true k b) x.node fun b hb => (if_pos hb).symm
  have hnode : (tracked s x k).sectionAt x.node = s.sectionAt x.node := by
    rw [tracked_eq]
    exact (Vector.getElem_ofFn x.node.isLt).trans (if_neg fun h => h rfl)
  rw [leave_eq, endedAt_congr hnode, sighted_eq s x k hr, tracked_eq, he, ← hset]
  rfl

end Sys2Proof.Proofs.Sightings
end

section
/-! PROOFS. The claims that sightings make: placing and adding, the entry, the UNREAD car's, and the reading of an arm that
is not set (R112, R114, R122, R125, R153). -/

namespace Sys2Proof.Proofs.Entries

open Sys2Proof Sys2Proof.Machine Host Kept Arguments Arithmetic Nodes Reports Lapses Sightings

/-! ### Placing and adding (R112, R114) -/

theorem insertClaim_eq (c : Claim) (l : List Claim) : insertClaim c l = placed c l := by
  induction l with
  | nil => rfl
  | cons d l ih =>
    have hlater : earlier c.enter d.enter = decide (0 < (d.enter - c.enter).toInt) := rfl
    unfold insertClaim
    rw [hlater, ih]
    unfold placed
    dsimp only
    rw [List.takeWhile_cons, List.dropWhile_cons]
    cases decide (0 < (d.enter - c.enter).toInt) <;> rfl

theorem addClaim_eq (sec : Section) (now : TrackTime) (c : Claim) : sec.addClaim now c = addedTo now sec c := by
  unfold Section.addClaim addedTo Section.overflowed
  rw [insertClaim_eq, bump_eq]
  exact rfl

theorem others_eq (l : List Claim) (k : Slot) :
    (l.filter fun c => c.car != .slot k) = l.filter fun c => decide (c.car ≠ .slot k) :=
  List.filter_congr fun c _ => by simp [bne, beq_eq_decide]

theorem placeAgain_eq (sec : Section) (k : Slot) (c : Claim) :
    sec.placeAgain k c = { sec with claims := placed c (sec.claims.filter fun d => decide (d.car ≠ .slot k)) } := by
  unfold Section.placeAgain
  rw [insertClaim_eq, others_eq]

theorem straightClaim_entered (s : State) (sec : Section) (k : Slot) (lane : Lane) (o : ClaimOrigin) (sense : TrackTime) :
    straightClaim sec.map (s.motion sec (.slot k)) (.slot k) lane o .entered sense sec.map.approach
      = enteredClaim sec.map (s.car k) k (levelOf s k) lane o sense := straightClaim_slot ..

/-! ### The entry (R122) -/

/-- The place that a lapse of slot k's own claim finds. -/
theorem claims_findIdx {sec : Section} {k : Slot} {c : Claim} (hu : SingleClaims sec.claims) (hc : sec.claimOf k = some c) :
    sec.claims[sec.claims.findIdx fun c => c.car == .slot k]? = some c := by
  obtain ⟨hm, hk⟩ := claimOf_some hc
  have hlt : (sec.claims.findIdx fun c => c.car == .slot k) < sec.claims.length :=
    List.findIdx_lt_length_of_exists ⟨c, hm, by simp [hk]⟩
  have hcar : sec.claims[sec.claims.findIdx fun c => c.car == .slot k].car = .slot k :=
    beq_iff_eq.mp (List.findIdx_getElem (w := hlt))
  rw [List.getElem?_eq_getElem hlt, hu.unique (List.getElem_mem hlt) hm hcar hk]

theorem lapsed_eq {sec : Section} {k : Slot} (hu : SingleClaims sec.claims) :
    Section.lapsed sec (sec.claims.findIdx fun c => c.car == .slot k)
      = afterRemoval { sec with lapseCount := min 65535 (sec.lapseCount + 1) }
        (sec.claims.filter fun c => decide (c.car ≠ .slot k)) := by
  unfold Section.lapsed
  rw [removeTo_eq, bump_eq, eraseIdx_findIdx_eq_filter hu, others_eq]
  exact rfl

/-- The lapse of slot k's own claim, not a PREDICTED one. -/
theorem lapseClaim_own {s : State} {a : Addr} {sec : Section} {k : Slot} {c : Claim} (hs : s.sectionAt a = some sec)
    (hu : SingleClaims sec.claims) (hc : sec.claimOf k = some c) (hp : c.state ≠ .predicted) :
    s.lapseClaim a (sec.claims.findIdx fun c => c.car == .slot k)
      = (closing s ((if c.state = .pending then [denyRecord s a k .tooLate none] else []) ++ [plainRecord s a (.slot k) .lapse])
          (fun j => decide (j = k) && decide (c.state = .pending))
          (s.sections.set a (some (afterRemoval { sec with lapseCount := min 65535 (sec.lapseCount + 1) }
            (sec.claims.filter fun c => decide (c.car ≠ .slot k)))))).requestCaution .lapse := by
  have hk := (claimOf_some hc).2
  have hplace := claims_findIdx hu hc
  have hform : s.lapseClaim a (sec.claims.findIdx fun c => c.car == .slot k)
      = (((s.denyLeaving a k c).setSection a
          (some (Section.lapsed sec (sec.claims.findIdx fun c => c.car == .slot k)))).writeRecord a (.slot k) .lapse none none
            false).requestCaution .lapse := by
    unfold State.denyLeaving
    by_cases hpend : c.state = .pending
    · rw [if_pos hpend, lapseClaim_of_request hs hplace hpend hk, hk]
    · rw [if_neg hpend, lapseClaim_of_standing hs hplace hp (.inl hpend), hk]
  rw [hform, denyLeaving_eq, lapsed_eq hu, closing_setSection, writeRecord_closing, closing_then]
  simp only [Bool.or_false]
  exact rfl

theorem closing_modifySection (s : State) (ds : List Decision) (f : Slot → Bool) (a : Addr) (sec : Section) (c : CautionSource)
    (g : Section → Section) :
    ((closing s ds f (s.sections.set a (some sec))).requestCaution c).modifySection a g
      = handed (closing s ds f (s.sections.set a (some (g sec)))) (s.cautionRequests ++ [c]) := by
  have hsec : ((closing s ds f (s.sections.set a (some sec))).requestCaution c).sectionAt a = some sec :=
    Vector.getElem_set_self _
  have hset : (s.sections.set a (some sec)).set a (some (g sec)) = s.sections.set a (some (g sec)) := Vector.set_set ..
  rw [State.modifySection, hsec, ← hset]
  rfl

/-- The claim made or moved at an entry, and what the lapse in it hands. -/
theorem enterClaim_eq {s : State} {x : Sighting} {sec : Section} (k : Slot) (hs : s.sectionAt x.node = some sec)
    (hu : SingleClaims sec.claims) :
    s.enterClaim x k = handed (enteredSection s x.node sec k x.lane x.sense) (s.cautionRequests ++ enteringSources sec k) := by
  unfold State.enterClaim enteredSection enteringSources
  rw [hs]
  dsimp only
  cases hc : sec.claimOf k with
  | none =>
    dsimp only
    rw [addClaim_eq, straightClaim_entered, List.append_nil]
    exact rfl
  | some c =>
    dsimp only
    by_cases hp : c.state = .predicted
    · rw [if_pos hp, if_pos hp, if_pos hp, placeAgain_eq, straightClaim_entered, List.append_nil]
      exact rfl
    · have hpending : (fun j => decide (j = k) && decide (c.state = .pending)) = fun j => decide (j = k ∧ c.state = .pending) :=
        funext fun j => (Bool.decide_and ..).symm
      rw [if_neg hp, if_neg hp, if_neg hp, lapseClaim_own hs hu hc hp, closing_modifySection, addClaim_eq,
        straightClaim_entered, recordedAll_eq, hpending]
      exact rfl

/-- The section record that an entry leaves. -/
def enteredRecord (s : State) (sec : Section) (k : Slot) (lane : Lane) (sense : TrackTime) : Section :=
  let fresh (origin : ClaimOrigin) := enteredClaim sec.map (s.car k) k (levelOf s k) lane origin sense
  let others := sec.claims.filter fun c => decide (c.car ≠ .slot k)
  match sec.claimOf k with
  | none => addedTo s.now sec (fresh .sensed)
  | some c =>
    if c.state = .predicted then { sec with claims := placed (fresh c.origin) others }
    else addedTo s.now (afterRemoval { sec with lapseCount := min 65535 (sec.lapseCount + 1) } others) (fresh .sensed)

theorem enteredSection_sectionAt (s : State) (a : Addr) (sec : Section) (k : Slot) (lane : Lane) (sense : TrackTime) :
    (enteredSection s a sec k lane sense).sectionAt a = some (enteredRecord s sec k lane sense) := by
  unfold enteredSection enteredRecord
  cases sec.claimOf k with
  | none => exact Vector.getElem_set_self _
  | some c =>
    dsimp only
    by_cases hp : c.state = .predicted
    · rw [if_pos hp, if_pos hp]
      exact Vector.getElem_set_self _
    · rw [if_neg hp, if_neg hp]
      exact Vector.getElem_set_self _

theorem enteredSection_requests (s : State) (a : Addr) (sec : Section) (k : Slot) (lane : Lane) (sense : TrackTime) :
    (enteredSection s a sec k lane sense).cautionRequests = s.cautionRequests := by
  unfold enteredSection
  cases sec.claimOf k with
  | none => rfl
  | some c =>
    dsimp only
    by_cases hp : c.state = .predicted
    · rw [if_pos hp]
    · rw [if_neg hp, recordedAll_eq]
      rfl

theorem enteredClaim_fits (s : State) (m : SectionMap) (k : Slot) (lane : Lane) (o : ClaimOrigin) (sense : TrackTime) :
    ClaimFits (enteredClaim m (s.car k) k (levelOf s k) lane o sense) := by
  have h := straightClaim_fits m (s.motion { Section.created 0 with map := m } (.slot k)) (.slot k) lane o .entered sense
    m.approach (.inl rfl)
  rwa [straightClaim_entered s { Section.created 0 with map := m }] at h

theorem enteredRecord_good {s : State} {sec : Section} (h : ClaimsGood true sec.claims) (k : Slot) (lane : Lane)
    (sense : TrackTime) : ClaimsGood true (enteredRecord s sec k lane sense).claims := by
  have hfits (o : ClaimOrigin) := enteredClaim_fits s sec.map k lane o sense
  have hstate (o : ClaimOrigin) : (enteredClaim sec.map (s.car k) k (levelOf s k) lane o sense).state ≠ .pending := by
    show ClaimState.entered ≠ .pending
    decide
  unfold enteredRecord
  dsimp only
  cases hc : sec.claimOf k with
  | none =>
    dsimp only
    rw [← addClaim_eq]
    refine addClaim_good h (fun j hj d hd => ?_) (hfits _) (hstate _)
    obtain rfl := CarRef.slot.inj hj
    exact claimOf_none hc d hd
  | some c =>
    dsimp only
    by_cases hp : c.state = .predicted
    · rw [if_pos hp, ← placeAgain_eq]
      exact placeAgain_good h hc rfl (hfits _) (hstate _)
    · rw [if_neg hp, ← addClaim_eq]
      have hrest : ClaimsGood true (sec.claims.filter fun c => decide (c.car ≠ .slot k)) := h.sublist List.filter_sublist
      refine addClaim_good hrest (fun j hj d hd => ?_) (hfits _) (hstate _)
      obtain rfl := CarRef.slot.inj hj
      exact of_decide_eq_true (List.mem_filter.mp hd).2

theorem mem_addedTo {now : TrackTime} {sec : Section} {c : Claim} (h : sec.claims.length < 6) :
    c ∈ (addedTo now sec c).claims := by
  rw [← addClaim_eq, Section.addClaim, if_pos (show sec.claims.length < Config.claimCapacity from h)]
  exact mem_insertClaim.mpr (.inl rfl)

/-- An entry that lapses a claim finds room for the new one. -/
theorem enteringSources_of_unstored {s : State} {sec : Section} {k : Slot} {lane : Lane} {sense : TrackTime}
    (hlen : sec.claims.length ≤ 6) (hno : ∀ c ∈ (enteredRecord s sec k lane sense).claims, c.car ≠ .slot k) :
    enteringSources sec k = [] := by
  unfold enteringSources
  unfold enteredRecord at hno
  cases hc : sec.claimOf k with
  | none => rfl
  | some c =>
    dsimp only
    by_cases hp : c.state = .predicted
    · exact if_pos hp
    · rw [hc] at hno
      dsimp only at hno
      have hroom := filter_length_lt hc hlen
      rw [others_eq] at hroom
      rw [if_neg hp] at hno
      exact absurd rfl (hno _ (mem_addedTo hroom))

/-! ### The arm that is not set (R122, R153) -/

theorem recordedAll_handed (s : State) (q : List CautionSource) (ds : List Decision) :
    recordedAll (handed s q) ds = handed (recordedAll s ds) q := by
  rw [recordedAll_eq, recordedAll_eq]
  rfl

theorem recordedAll_requests (s : State) (ds : List Decision) : (recordedAll s ds).cautionRequests = s.cautionRequests := by
  rw [recordedAll_eq]
  rfl

theorem lateConflictTest_handed {v : State} {a : Addr} {sec : Section} (q : List CautionSource) (c : Claim)
    (hs : v.sectionAt a = some sec) :
    (handed v q).lateConflictTest a c = handed (recordedAll v (lateRecords v a sec c)) (q ++ lateSources (lateRecords v a sec c)) := by
  rw [lateConflictTest_eq (handed v q) a sec c hs, recordedAll_handed]
  rfl

theorem readArm_unarmed {v : State} {a : Addr} {k : Slot} {sec : Section} {c : Claim} (q : List CautionSource)
    (hs : v.sectionAt a = some sec) (hc : sec.claimOf k = some c) (harm : (v.car k).armed = false) :
    (handed v q).readArm a k
      = handed (recordedAll v (lateRecords v a sec c)) (q ++ lateSources (lateRecords v a sec c)) := by
  rw [← lateConflictTest_handed q c hs]
  unfold State.readArm
  rw [show (handed v q).sectionAt a = some sec from hs]
  dsimp only
  rw [hc]
  exact if_neg (by rw [show ((handed v q).car k).armed = false from harm]; decide)

theorem readArm_unstored {v : State} {a : Addr} {k : Slot} {sec : Section} (q : List CautionSource)
    (hs : v.sectionAt a = some sec) (hc : sec.claimOf k = none) :
    (handed v q).readArm a k = if (v.car k).armed then (handed v q).recordDenial a k .blind none else handed v q := by
  unfold State.readArm
  rw [show (handed v q).sectionAt a = some sec from hs]
  dsimp only
  rw [hc]
  exact rfl

/-! ### Sightings of an UNREAD car (R125) -/

theorem lateConflicts_placed {sec : Section} {c : Claim} (hc : c.state ≠ .granted) :
    lateConflicts { sec with claims := placed c sec.claims } c = lateConflicts sec c := by
  unfold lateConflicts placed
  dsimp only
  rw [List.filter_append, List.filter_cons_of_neg (by simp [hc]), ← List.filter_append, List.takeWhile_append_dropWhile]

theorem isAnonOn_iff (lane : Lane) (c : Claim) :
    isAnonOn lane c = true ↔ c.car = .anon ∧ c.kind = if lane = .a then .straightA else .straightB := by
  unfold isAnonOn
  rw [Bool.and_eq_true, decide_eq_true_iff, decide_eq_true_iff]
  cases lane <;> rfl

theorem anonSighting_elsewhere {u : State} {x : Sighting} (h : x.role ≠ .sect) : u.anonSighting x = u := by
  have hentry : x.isEntry = false := by
    unfold Sighting.isEntry
    rw [decide_eq_false h, Bool.false_and]
  have hexit : x.isExit = false := by
    unfold Sighting.isExit
    rw [decide_eq_false h, Bool.false_and]
  unfold State.anonSighting
  cases u.sectionAt x.node with
  | none => rfl
  | some sec =>
    dsimp only
    rw [hentry, hexit]
    exact (if_neg Bool.false_ne_true).trans (if_neg fun h => Bool.false_ne_true h.1)

theorem anonSighting_entry {u : State} {x : Sighting} {sec : Section} (he : x.isEntry = true)
    (hs : u.sectionAt x.node = some sec) :
    u.anonSighting x =
      let u' := u.setSection x.node (some (addedTo u.now sec (anonEntered sec.map x.lane x.sense)))
      if sec.claims.length < 6 then u'.lateConflictTest x.node (anonEntered sec.map x.lane x.sense) else u' := by
  unfold State.anonSighting
  rw [hs]
  dsimp only
  rw [he, anonClaim_eq, addClaim_eq, if_pos rfl]
  exact if_congr decide_eq_true_iff rfl rfl

theorem anonSighting_exit {u : State} {x : Sighting} {sec : Section} (hr : x.role = .sect) (hx : x.sensor = .exit)
    (hs : u.sectionAt x.node = some sec) :
    u.anonSighting x = if sec.claims.any (isAnonOn x.lane) then
        u.setSection x.node (some (afterRemoval sec (sec.claims.eraseP (isAnonOn x.lane)))) else u := by
  have hentry : x.isEntry = false := by
    unfold Sighting.isEntry
    rw [hx]
    exact Bool.and_false _
  have hexit : x.isExit = true := by
    unfold Sighting.isExit
    rw [hr, hx]
    rfl
  unfold State.anonSighting
  rw [hs]
  dsimp only
  rw [hentry, hexit, removeTo_eq]
  exact (if_neg Bool.false_ne_true).trans (if_congr (and_iff_right rfl) rfl rfl)

/-! ### Stale and repeated sightings (R119) -/

theorem stale_iff (p : Position) (x : Sighting) :
    p.stale x = true ↔ ∃ t, p.lastSeen = some t ∧ 0 < (t - x.sense).toInt := by
  unfold Position.stale
  cases p.lastSeen with
  | none =>
    refine ⟨nofun, ?_⟩
    rintro ⟨t, h, -⟩
    exact nomatch h
  | some t =>
    refine decide_eq_true_iff.trans ⟨fun h => ⟨t, rfl, h⟩, ?_⟩
    rintro ⟨t', h, hlt⟩
    exact Option.some.inj h ▸ hlt

theorem repeats_iff (p : Position) (x : Sighting) :
    p.repeats x = true ↔ ∃ t, p.lastSeen = some t ∧ p.lastNode = some x.node ∧ p.lastSensor = some x.sensor
      ∧ p.lastLane = some x.lane ∧ (x.sense - t).toInt < 1000 := by
  unfold Position.repeats
  cases p.lastSeen with
  | none =>
    refine ⟨nofun, ?_⟩
    rintro ⟨t, h, -⟩
    exact nomatch h
  | some t =>
    dsimp only
    rw [Bool.and_eq_true, Bool.and_eq_true, Bool.and_eq_true, decide_eq_true_iff, decide_eq_true_iff, decide_eq_true_iff,
      decide_eq_true_iff, and_assoc, and_assoc]
    refine ⟨fun h => ⟨t, rfl, h⟩, ?_⟩
    rintro ⟨t', h, hrest⟩
    exact Option.some.inj h ▸ hrest

/-- A sighting of a car slot that is neither. -/
theorem sighting_of_car {u : State} {x : Sighting} {k : Slot} (hk : x.car = some k)
    (hs : ¬ (u.position k).stale x = true) (hr : ¬ (u.position k).repeats x = true) : u.sighting x = u.carSighting x k := by
  unfold State.sighting
  rw [hk]
  dsimp only
  rw [Bool.not_eq_true] at hs hr
  rw [hs, hr]
  exact if_neg Bool.false_ne_true

theorem carSighting_entry {u : State} {x : Sighting} (k : Slot) (he : x.isEntry = true) :
    u.carSighting x k = ((tracked u x k).enterClaim x k).readArm x.node k := by
  unfold State.carSighting
  dsimp only
  rw [he]
  exact if_pos rfl

theorem carSighting_ahead {u : State} {x : Sighting} (k : Slot) (he : x.isEntry = false)
    (hr : x.role = (u.node x.node).role) :
    u.carSighting x k = (sighted u x.node x.sensor x.lane x.sense k).lookahead x k := by
  unfold State.carSighting
  dsimp only
  rw [he]
  refine (if_neg Bool.false_ne_true).trans ?_
  cases hx : x.isExit with
  | true =>
    rw [← leave_sighted k hr hx]
    exact if_pos rfl
  | false =>
    rw [← tracked_sighted k hr hx]
    exact if_neg Bool.false_ne_true

end Sys2Proof.Proofs.Entries
end

section
/-! PROOFS. Sightings as frames on the bus: stale and repeated ones, the entry of a car not armed, the UNREAD car (R96,
R102, R119 to R122, R125, R153). -/

namespace Sys2Proof.Proofs.Sensing

open Sys2Proof Sys2Proof.Machine Host Kept Arguments Nodes Reports Lapses Sightings Entries

/-- The sighting that a node's SENSE frame hands now. -/
def sightingOf (s : State) (a : Addr) (sensor : Sensor) (lane : Lane) (car : Option Slot) (age : Nat) : Sighting where
  node := a
  role := (s.node a).role
  sensor := sensor
  lane := lane
  car := car
  sense := s.now - BitVec.ofNat 32 age

theorem reported_role (s : State) (a : Addr) : ((reported s a).node a).role = (s.node a).role := by
  show ((s.setNode a _).node a).role = _
  rw [setNode_node, if_pos rfl]

section Frame
variable {s : State} {a : Addr} {bytes : List Byte} {sensor : Sensor} {lane : Lane} {car : Option Slot} {age : Nat}
variable (hr : Running s) (ht : s.track ≠ .standby) (hk : ClaimListsKept s)
variable (hst : (s.node a).status = .live ∨ (s.node a).status = .silent)
variable (hrole : (s.node a).role = .sect ∨ (s.node a).role = .gate)
variable (hm : parseBusFrame bytes = .message a (.sense sensor lane car age))
include hr ht hst hrole hm

theorem exec_sense : exec (.nodeFrame bytes) s
    = .next ((reported s a).sighting (sightingOf s a sensor lane car age)).takeCautionRequests := by
  rw [exec_report hr ht hst hm hrole fun _ => nofun]
  unfold sightingOf
  rw [← reported_role s a]
  rfl

theorem exec_sense_plain {w : State} (hw : (reported s a).sighting (sightingOf s a sensor lane car age) = w)
    (hw0 : w.cautionRequests = []) : exec (.nodeFrame bytes) s = .next w := by
  rw [exec_sense hr ht hst hrole hm, hw, takeCautionRequests_nil w hw0]

include hk

/-- Its closed form by that of the sighting. -/
theorem exec_sense_taken {w : State} {l : List CautionSource}
    (hw : (reported s a).sighting (sightingOf s a sensor lane car age) = handed w l) (hw0 : w.cautionRequests = []) :
    exec (.nodeFrame bytes) s = .next (cautionAfter w l) := by
  have hku : ClaimListsKept (reported s a) := hk
  rw [exec_sense hr ht hst hrole hm]
  exact congrArg Outcome.next (take_operation (sighting_arbitrated _ _) (fun h => sighting_kept h _) hw hw0 hku)

end Frame

theorem sighted_requests (s : State) (x : Sighting) (k : Slot) (hr : x.role = (s.node x.node).role) :
    (sighted s x.node x.sensor x.lane x.sense k).cautionRequests = s.cautionRequests := by
  rw [sighted_eq s x k hr]
  rfl

/-- An entry ends no claim of its own section. -/
theorem sighted_own {s : State} {x : Sighting} (k : Slot) (hr : x.role = (s.node x.node).role) (he : x.isExit = false) :
    (sighted s x.node x.sensor x.lane x.sense k).sectionAt x.node = s.sectionAt x.node := by
  rw [sighted_eq s x k hr, he]
  exact (Vector.getElem_ofFn x.node.isLt).trans (endedAt_none (endingClaim_own s x.node k))

/-- The entry up to the reading of the arm. -/
theorem carSighting_entered {u : State} {x : Sighting} {sec : Section} (k : Slot) (hr : x.role = (u.node x.node).role)
    (hsect : x.role = .sect) (hentry : x.sensor = .entry) (hs : u.sectionAt x.node = some sec)
    (hu : SingleClaims sec.claims) (h0 : u.cautionRequests = []) :
    u.carSighting x k = (handed (enteredSection (sighted u x.node x.sensor x.lane x.sense k) x.node sec k x.lane x.sense)
      (enteringSources sec k)).readArm x.node k := by
  have he : x.isEntry = true := by
    unfold Sighting.isEntry
    rw [hsect, hentry]
    rfl
  have hx : x.isExit = false := by
    unfold Sighting.isExit
    rw [hentry]
    exact Bool.and_false _
  have hown := (sighted_own k hr hx).trans hs
  have hrequests := (sighted_requests u x k hr).trans h0
  rw [carSighting_entry k he, tracked_sighted k hr hx, enterClaim_eq k hown hu, hrequests, List.nil_append]

theorem good_of_lists {s : State} (hk : ClaimListsKept s) {a : Addr} {sec : Section} (hs : s.sectionAt a = some sec) :
    ClaimsGood true sec.claims := by
  obtain ⟨hlen, hsingle, hfits⟩ := hk a sec hs
  exact ⟨hlen, hsingle, hfits, fun h => nomatch h⟩

theorem handed_nil {s : State} (h : s.cautionRequests = []) : handed s [] = s := by
  unfold handed
  rw [← h]

theorem lateConflictTest_taken {t : State} {a : Addr} {sec : Section} (c : Claim) (h0 : t.cautionRequests = [])
    (hs : t.sectionAt a = some sec) :
    t.lateConflictTest a c = handed (recordedAll t (lateRecords t a sec c)) (lateSources (lateRecords t a sec c)) := by
  have h := lateConflictTest_handed [] c hs
  rwa [handed_nil h0, List.nil_append] at h

theorem lateRecords_placed {sec : Section} {c : Claim} (hc : c.state ≠ .granted) (t : State) (a : Addr) :
    lateRecords t a { sec with claims := placed c sec.claims } c = lateRecords t a sec c := by
  unfold lateRecords
  rw [lateConflicts_placed hc]

/-- The first ANON claim on the lane goes. -/
theorem eraseP_split {p : Claim → Bool} {l r : List Claim} {c : Claim} (hl : ∀ d ∈ l, ¬ p d = true) (hc : p c = true) :
    (l ++ c :: r).eraseP p = l ++ r := by
  rw [List.eraseP_append_right _ hl, List.eraseP_cons_of_pos hc]

theorem claimOf_none_of_absent {sec : Section} {k : Slot} (h : ∀ c ∈ sec.claims, c.car ≠ .slot k) : sec.claimOf k = none :=
  List.find?_eq_none.mpr fun c hc e => h c hc (beq_iff_eq.mp e)

theorem sighting_unread {u : State} {x : Sighting} (h : x.car = none) : u.sighting x = u.anonSighting x := by
  unfold State.sighting
  rw [h]

/-- Settles O45: each kind of sighting by its closed form. -/
theorem sightingsMoveClaimsAndPositions : Obligations.SightingsMoveClaimsAndPositions := by
  intro s a bytes sensor lane age car hr h0 ht hk hst hrole hm u sense run repeats tested
  have hplain {w : State} (hw : u.sighting (sightingOf s a sensor lane car age) = w) (hw0 : w.cautionRequests = []) :
      run = .next w := exec_sense_plain hr ht hst hrole hm hw hw0
  have htaken {w : State} {l : List CautionSource} (hw : u.sighting (sightingOf s a sensor lane car age) = handed w l)
      (hw0 : w.cautionRequests = []) : run = .next (cautionAfter w l) :=
    exec_sense_taken hr ht hk hst hrole hm hw hw0
  have hxrole : (sightingOf s a sensor lane car age).role = (u.node a).role := (reported_role s a).symm
  refine ⟨fun k t hcar hseen hold => ?old, fun k hcar hentry hsect hnew sec hs => ?entry, fun sec hcar hsect hentry hs => ?anon,
    fun hcar hgate => ?gate, fun sec hcar hsect hexit hs => ?exit⟩
  case old =>
    refine hplain ?_ h0
    obtain hstale | hrep := hold
    · exact sighting_stale u _ k hcar ((stale_iff _ _).mpr ⟨t, hseen, hstale⟩)
    · exact sighting_repeated u _ k hcar ((repeats_iff _ _).mpr ⟨t, hseen, hrep⟩)
  case entry =>
    intro v harm
    have hu : SingleClaims sec.claims := hk.single hs
    have hgood := good_of_lists hk hs
    have hsight : u.sighting (sightingOf s a sensor lane car age) = (handed v (enteringSources sec k)).readArm a k := by
      rw [sighting_of_car hcar, carSighting_entered k hxrole hsect hentry hs hu h0]
      · rfl
      · rw [stale_iff]
        rintro ⟨t, hseen, hstale⟩
        exact (hnew t hseen).1 hstale
      · rw [repeats_iff]
        rintro ⟨t, hseen, hrep⟩
        exact (hnew t hseen).2 hrep
    have hv : v.sectionAt a = some _ := enteredSection_sectionAt ..
    have hv0 : v.cautionRequests = [] := (enteredSection_requests ..).trans
      ((sighted_requests u (sightingOf s a sensor lane car age) k hxrole).trans h0)
    refine ⟨fun sec' c hs' hc hcar' => ?_, fun hno => ?_⟩
    · obtain rfl := Option.some.inj (hv.symm.trans hs')
      have hclaim := claimOf_eq (enteredRecord_good hgood k lane sense).single hc hcar'
      exact htaken (hsight.trans (readArm_unarmed _ hs' hclaim harm)) ((recordedAll_requests _ _).trans hv0)
    · have hno := hno _ hv
      refine hplain ?_ hv0
      rw [hsight, enteringSources_of_unstored hgood.length hno, readArm_unstored _ hv (claimOf_none_of_absent hno),
        if_neg (ne_true_of_eq_false harm), handed_nil hv0]
  case anon =>
    intro c
    have hentry' : (sightingOf s a sensor lane car age).isEntry = true := by
      unfold Sighting.isEntry sightingOf
      rw [hsect, hentry]
      rfl
    have hsight := (sighting_unread (u := u) (x := sightingOf s a sensor lane car age) hcar).trans (anonSighting_entry hentry' hs)
    refine ⟨fun hroom => ?_, fun hfull => ?_⟩
    · have hadded : addedTo u.now sec c = { sec with claims := placed c sec.claims } := if_pos hroom
      have hstored : u.sighting (sightingOf s a sensor lane car age)
          = (u.setSection a (some { sec with claims := placed c sec.claims })).lateConflictTest a c := by
        rw [← hadded]
        exact hsight.trans (if_pos hroom)
      have hset : (u.setSection a (some { sec with claims := placed c sec.claims })).sectionAt a
          = some { sec with claims := placed c sec.claims } := Vector.getElem_set_self _
      have hstate : c.state ≠ .granted := by
        show ClaimState.entered ≠ .granted
        decide
      have hlate := lateConflictTest_taken (t := u.setSection a (some { sec with claims := placed c sec.claims })) c h0 hset
      rw [lateRecords_placed hstate] at hlate
      exact htaken (hstored.trans hlate) ((recordedAll_requests _ _).trans h0)
    · have hadded : addedTo u.now sec c = { sec with
          overflow := true, lastOverflow := some s.now, overflowCount := min 65535 (sec.overflowCount + 1) } :=
        if_neg (Nat.not_lt.mpr hfull)
      refine hplain (hsight.trans ((if_neg (Nat.not_lt.mpr hfull)).trans ?_)) h0
      exact congrArg (fun sec' => u.setSection a (some sec')) hadded
  case gate =>
    have hother : (sightingOf s a sensor lane car age).role ≠ .sect := by
      show (s.node a).role ≠ .sect
      rw [hgate]
      decide
    exact hplain ((sighting_unread hcar).trans (anonSighting_elsewhere hother)) h0
  case exit =>
    intro here
    have hsight := (sighting_unread (u := u) (x := sightingOf s a sensor lane car age) hcar).trans
      (anonSighting_exit hsect hexit hs)
    have hhere (c : Claim) : isAnonOn lane c = true ↔ here c := isAnonOn_iff lane c
    refine ⟨fun hno => ?_, fun l c r hl hbefore hc => ?_⟩
    · refine hplain (hsight.trans (if_neg ?_)) h0
      rw [List.any_eq_true]
      rintro ⟨c, hc, h⟩
      exact hno c hc ((hhere c).mp h)
    · have hmem : c ∈ sec.claims := by
        rw [hl]
        exact List.mem_append_right l List.mem_cons_self
      have herase : sec.claims.eraseP (isAnonOn lane) = l ++ r := by
        rw [hl]
        exact eraseP_split (fun d hd h => hbefore d hd ((hhere d).mp h)) ((hhere c).mpr hc)
      refine hplain (hsight.trans ((if_pos (List.any_eq_true.mpr ⟨c, hmem, (hhere c).mpr hc⟩)).trans ?_)) h0
      exact congrArg (fun claims => u.setSection a (some (afterRemoval sec claims))) herase

end Sys2Proof.Proofs.Sensing
end

section
/-! PROOFS. The lookahead from a node (R124, R153): the claim in every section whose link for the lane names it. -/

namespace Sys2Proof.Proofs.Lookahead

open Sys2Proof Sys2Proof.Machine Host Kept Arguments Arithmetic Console Lapses Sightings Entries Sensing

/-! ### One section -/

/-- The section record at b after the lookahead. -/
def aheadAt (s : State) (x : Sighting) (k : Slot) (b : Addr) : Option Section :=
  (s.sectionAt b).map fun sec =>
    match foreseen s x.node x.lane x.sense k sec with
    | none => sec
    | some c => withForeseen s.now k sec c

/-- The late conflicts that the lookahead finds at b. -/
def aheadRecords (s : State) (x : Sighting) (k : Slot) (b : Addr) : List Decision :=
  match s.sectionAt b with
  | none => []
  | some sec =>
    match foreseen s x.node x.lane x.sense k sec with
    | none => []
    | some c => if (sec.claimOf k).isSome ∨ sec.claims.length < 6 then lateRecords s b sec c else []

/-- Records written, section records replaced, and requests handed. -/
def foretold (s : State) (ds : List Decision) (v : Vector (Option Section) 15) (q : List CautionSource) : State :=
  { withQueue s (queued s ds) with sections := v, cautionRequests := q }

theorem foretold_then (s : State) (ds es : List Decision) (v w : Vector (Option Section) 15) (q p : List CautionSource) :
    foretold (foretold s ds v q) es w p = foretold s (ds ++ es) w p := by
  have hqueue := queued_withQueue s (foretold s ds v q) ds es rfl rfl rfl
  unfold foretold at hqueue ⊢
  rw [hqueue]
  rfl

theorem foretold_none (s : State) : foretold s [] s.sections s.cautionRequests = s := rfl

theorem handed_recordedAll (s : State) (ds : List Decision) (q : List CautionSource) :
    handed (recordedAll s ds) q = foretold s ds s.sections q := by
  rw [recordedAll_eq]
  rfl

theorem foreseen_of_link {s : State} {x : Sighting} {k : Slot} {sec : Section} :
    foreseen s x.node x.lane x.sense k sec = match sec.map.link x.lane with
      | some link => if link.node = x.node then
          some (straightClaim sec.map (s.motion sec (.slot k)) (.slot k) x.lane .lookahead .predicted x.sense
            (link.distance + sec.map.approach)) else none
      | none => none := by
  have hlink : (if x.lane = .a then sec.map.linkA else sec.map.linkB) = sec.map.link x.lane := by cases x.lane <;> rfl
  unfold foreseen
  rw [hlink]
  cases sec.map.link x.lane with
  | none => rfl
  | some link =>
    dsimp only
    rw [straightClaim_slot]
    rfl

/-- No claim of slot k stands GRANTED in the section. -/
def NoneGranted (sec : Section) (k : Slot) : Prop := ∀ c ∈ sec.claims, c.car = .slot k → c.state ≠ .granted

theorem lateConflicts_replaced {sec : Section} {k : Slot} {c : Claim} (hn : NoneGranted sec k) (hc : c.state ≠ .granted) :
    lateConflicts { sec with claims := placed c (sec.claims.filter fun d => decide (d.car ≠ .slot k)) } c
      = lateConflicts sec c := by
  refine (lateConflicts_placed (sec := { sec with claims := sec.claims.filter fun d => decide (d.car ≠ .slot k) }) hc).trans ?_
  unfold lateConflicts
  dsimp only
  rw [List.filter_filter]
  refine List.filter_congr fun d hd => ?_
  by_cases hk : d.car = .slot k
  · rw [decide_eq_false (hn d hd hk)]
    simp
  · simp [hk]

theorem foreseen_state {s : State} {a : Addr} {lane : Lane} {sense : TrackTime} {k : Slot} {sec : Section} {c : Claim}
    (h : foreseen s a lane sense k sec = some c) : c.state = .predicted := by
  unfold foreseen at h
  split at h
  · split at h
    · rw [← Option.some.inj h]
      rfl
    · exact nomatch h
  · exact nomatch h

/-- The model's step over a section that the node foresees. -/
theorem lookaheadAt_foreseen {t : State} {x : Sighting} {k : Slot} {b : Addr} {sec : Section} {c : Claim}
    (hs : t.sectionAt b = some sec) (hf : foreseen t x.node x.lane x.sense k sec = some c) :
    t.lookaheadAt x k b = if (sec.claimOf k).isSome then (t.setSection b (some (sec.placeAgain k c))).lateConflictTest b c
      else if sec.claims.length < 6 then (t.setSection b (some (sec.addClaim t.now c))).lateConflictTest b c
      else t.setSection b (some (sec.addClaim t.now c)) := by
  rw [foreseen_of_link] at hf
  unfold State.lookaheadAt
  rw [hs]
  dsimp only
  cases hl : sec.map.link x.lane with
  | none =>
    rw [hl] at hf
    exact nomatch hf
  | some link =>
    rw [hl] at hf
    dsimp only at hf ⊢
    by_cases hnode : link.node = x.node
    · rw [if_pos hnode] at hf
      rw [if_neg (not_not.mpr hnode), Option.some.inj hf]
      cases sec.claimOf k with
      | none => exact (if_congr decide_eq_true_iff rfl rfl).trans (if_neg Bool.false_ne_true).symm
      | some d => rfl
    · rw [if_neg hnode] at hf
      exact nomatch hf

theorem lateRecords_eq_of {s : State} {b : Addr} {sec sec' : Section} {c : Claim}
    (h : lateConflicts sec' c = lateConflicts sec c) : lateRecords s b sec' c = lateRecords s b sec c := by
  unfold lateRecords
  rw [h]

theorem lateConflictTest_foretold {t : State} {b : Addr} (sec : Section) (c : Claim) :
    (t.setSection b (some sec)).lateConflictTest b c
      = foretold t (lateRecords t b sec c) (t.sections.set b (some sec)) (t.cautionRequests ++ lateSources (lateRecords t b sec c)) := by
  have hs : (t.setSection b (some sec)).sectionAt b = some sec := Vector.getElem_set_self _
  rw [lateConflictTest_eq _ b sec c hs, recordedAll_eq]
  rfl

theorem lookaheadAt_eq (t : State) (x : Sighting) (k : Slot) (b : Addr)
    (hn : ∀ sec, t.sectionAt b = some sec → NoneGranted sec k) :
    t.lookaheadAt x k b = foretold t (aheadRecords t x k b) (t.sections.set b (aheadAt t x k b))
      (t.cautionRequests ++ lateSources (aheadRecords t x k b)) := by
  have hself (h1 : aheadRecords t x k b = []) (h2 : aheadAt t x k b = t.sectionAt b) :
      foretold t (aheadRecords t x k b) (t.sections.set b (aheadAt t x k b))
        (t.cautionRequests ++ lateSources (aheadRecords t x k b)) = t := by
    have hset : t.sections.set b (t.sectionAt b) = t.sections := Vector.set_getElem_self ..
    rw [h1, h2, hset]
    exact (congrArg (foretold t [] t.sections) (List.append_nil _)).trans (foretold_none t)
  cases hs : t.sectionAt b with
  | none =>
    rw [hself (by unfold aheadRecords; rw [hs]) (by unfold aheadAt; rw [hs]; rfl)]
    unfold State.lookaheadAt
    rw [hs]
  | some sec =>
    cases hf : foreseen t x.node x.lane x.sense k sec with
    | none =>
      have hrecords : aheadRecords t x k b = [] := by
        unfold aheadRecords
        simp only [hs, hf]
      have hat : aheadAt t x k b = t.sectionAt b := by
        unfold aheadAt
        rw [hs, Option.map_some, hf]
      rw [hself hrecords hat]
      rw [foreseen_of_link] at hf
      unfold State.lookaheadAt
      rw [hs]
      dsimp only
      cases hl : sec.map.link x.lane with
      | none => rfl
      | some link =>
        rw [hl] at hf
        dsimp only at hf ⊢
        refine if_pos fun h => ?_
        rw [if_pos h] at hf
        exact nomatch hf
    | some c =>
      have hat : aheadAt t x k b = some (withForeseen t.now k sec c) := by
        unfold aheadAt
        rw [hs, Option.map_some, hf]
      have hrecords : aheadRecords t x k b
          = if (sec.claimOf k).isSome ∨ sec.claims.length < 6 then lateRecords t b sec c else [] := by
        unfold aheadRecords
        simp only [hs, hf]
      have hstate : c.state ≠ .granted := by
        rw [foreseen_state hf]
        decide
      rw [lookaheadAt_foreseen hs hf, hat, hrecords, placeAgain_eq, addClaim_eq]
      unfold withForeseen
      by_cases hclaim : (sec.claimOf k).isSome = true
      · rw [if_pos hclaim, if_pos hclaim, if_pos (.inl hclaim), lateConflictTest_foretold,
          lateRecords_eq_of (lateConflicts_replaced (hn sec hs) hstate)]
      · rw [if_neg hclaim, if_neg hclaim]
        by_cases hroom : sec.claims.length < 6
        · have hadded : addedTo t.now sec c = { sec with claims := placed c sec.claims } := if_pos hroom
          rw [if_pos hroom, if_pos (.inr hroom), hadded, lateConflictTest_foretold, lateRecords_eq_of (lateConflicts_placed hstate)]
        · rw [if_neg hroom, if_neg (fun h => h.elim hclaim hroom)]
          exact (congrArg (foretold t [] _) (List.append_nil _)).symm

/-! ### Every section (R124) -/

theorem aheadAt_foretold {s : State} {ds : List Decision} {v : Vector (Option Section) 15} {q : List CautionSource} {b : Addr}
    (h : (foretold s ds v q).sectionAt b = s.sectionAt b) (x : Sighting) (k : Slot) :
    aheadAt (foretold s ds v q) x k b = aheadAt s x k b := by
  unfold aheadAt
  rw [h]
  rfl

theorem aheadRecords_foretold {s : State} {ds : List Decision} {v : Vector (Option Section) 15} {q : List CautionSource} {b : Addr}
    (h : (foretold s ds v q).sectionAt b = s.sectionAt b) (x : Sighting) (k : Slot) :
    aheadRecords (foretold s ds v q) x k b = aheadRecords s x k b := by
  unfold aheadRecords
  rw [h]
  exact rfl

theorem foldl_lookaheadAt (s : State) (x : Sighting) (k : Slot) (hn : ∀ b sec, s.sectionAt b = some sec → NoneGranted sec k)
    {l : List Addr} (hnodup : l.Nodup) :
    l.foldl (fun s b => s.lookaheadAt x k b) s = foretold s (l.flatMap (aheadRecords s x k))
      (Vector.ofFn fun b => if b ∈ l then aheadAt s x k b else s.sectionAt b)
      (s.cautionRequests ++ lateSources (l.flatMap (aheadRecords s x k))) := by
  induction l using List.reverseRecOn with
  | nil =>
    have hsections : (Vector.ofFn fun b : Addr => if b ∈ ([] : List Addr) then aheadAt s x k b else s.sectionAt b)
        = s.sections := by
      ext i hi
      rw [Vector.getElem_ofFn, if_neg List.not_mem_nil]
      rfl
    rw [hsections]
    exact (congrArg (foretold s [] s.sections) (List.append_nil _)).symm
  | append_singleton l b ih =>
    have hnl : l.Nodup := (List.nodup_append.mp hnodup).1
    have hbl : b ∉ l := fun h => (List.nodup_append.mp hnodup).2.2 b h b (List.mem_singleton.mpr rfl) rfl
    have hset := ofFn_set (fun y => if y ∈ l then aheadAt s x k y else s.sectionAt y)
      (fun y => if y ∈ l ++ [b] then aheadAt s x k y else s.sectionAt y) b fun y hy =>
        if_congr (by simp [hy]) rfl rfl
    rw [if_pos (List.mem_append_right l (List.mem_singleton.mpr rfl))] at hset
    rw [List.foldl_append, ih hnl, List.foldl_cons, List.foldl_nil, List.flatMap_append, List.flatMap_singleton, lateSources_append]
    generalize l.flatMap (aheadRecords s x k) = ds
    have hsame : (foretold s ds (Vector.ofFn fun b => if b ∈ l then aheadAt s x k b else s.sectionAt b)
        (s.cautionRequests ++ lateSources ds)).sectionAt b = s.sectionAt b :=
      (Vector.getElem_ofFn b.isLt).trans (if_neg hbl)
    rw [lookaheadAt_eq _ x k b (fun sec h => hn b sec (hsame.symm.trans h)), aheadAt_foretold hsame,
      aheadRecords_foretold hsame, foretold_then, ← hset,
      ← List.append_assoc]
    rfl

theorem lookedAhead_eq (s : State) (x : Sighting) (k : Slot) (q : List CautionSource) :
    handed (lookedAhead s x.node x.lane x.sense k) q
      = foretold s (allAddrs.flatMap (aheadRecords s x k)) (Vector.ofFn (aheadAt s x k)) q := by
  unfold lookedAhead
  rw [recordedAll_eq]
  rfl

/-- The lookahead, whole. -/
theorem lookahead_eq {s : State} {x : Sighting} {k : Slot} (hn : ∀ b sec, s.sectionAt b = some sec → NoneGranted sec k) :
    s.lookahead x k = handed (lookedAhead s x.node x.lane x.sense k)
      (s.cautionRequests ++ lateSources (lookaheadRecords s x.node x.lane x.sense k)) := by
  have hall : (Vector.ofFn fun b => if b ∈ allAddrs then aheadAt s x k b else s.sectionAt b) = Vector.ofFn (aheadAt s x k) :=
    congrArg Vector.ofFn (funext fun b => if_pos (mem_allAddrs b))
  have hfold := foldl_lookaheadAt s x k hn (l := allAddrs) (by decide)
  rw [hall] at hfold
  rw [lookedAhead_eq]
  exact hfold

end Sys2Proof.Proofs.Lookahead
end

section
/-! PROOFS. Sightings that look ahead, and the crossing requests of armed cars (R119 to R124, R134, R142, R143, R145, R153). -/

namespace Sys2Proof.Proofs.Requests

open Sys2Proof Sys2Proof.Machine Host Kept Arguments Arithmetic Nodes Reports Lapses Decisions Sightings Entries Sensing Lookahead

/-! ### What the ending of its claims leaves a car (R120, R123) -/

theorem endedAt_predicted {s : State} {a b : Addr} {e : Bool} {k : Slot} (hk : ClaimListsKept s)
    (hown : b = a → e = true ∨ s.sectionAt a = none) {sec : Section} (h : endedAt s a e k b = some sec) : NoneGranted sec k := by
  unfold endedAt at h
  by_cases hend : (endingClaim s a e k b).isSome = true
  · rw [if_pos hend] at h
    obtain ⟨sec', -, rfl⟩ := Option.map_eq_some_iff.mp h
    intro c hc hcar
    exact absurd hcar (of_decide_eq_true (List.mem_filter.mp hc).2)
  · rw [if_neg hend] at h
    intro c hc hcar
    have hclaim := claimOf_eq (hk.single h) hc hcar
    by_cases hb : b = a
    · subst hb
      obtain rfl | hnone := hown rfl
      · rw [endingClaim_here true h hclaim] at hend
        exact absurd rfl hend
      · exact nomatch hnone.symm.trans h
    · rw [endingClaim_elsewhere e hb h hclaim] at hend
      by_cases hp : c.state = .predicted
      · rw [hp]
        decide
      · rw [if_pos hp] at hend
        exact absurd rfl hend

theorem sighted_noneGranted {s : State} {x : Sighting} {k : Slot} (hk : ClaimListsKept s) (hr : x.role = (s.node x.node).role)
    (hown : x.isExit = true ∨ s.sectionAt x.node = none) (b : Addr) (sec : Section)
    (h : (sighted s x.node x.sensor x.lane x.sense k).sectionAt b = some sec) : NoneGranted sec k := by
  rw [sighted_eq s x k hr] at h
  exact endedAt_predicted hk (fun _ => hown) ((Vector.getElem_ofFn b.isLt).symm.trans h)

/-! ### What an entry leaves alone -/

theorem tracked_arbitrated (s : State) (x : Sighting) (k : Slot) : Arbitrated s (tracked s x k) :=
  (inferenceClose_arbitrated s x k).trans (updatePosition_arbitrated _ x k _)

/-- The claim of slot k that an entry leaves, where it is stored, is the entered one. -/
theorem enteredRecord_claim {s : State} {sec : Section} {k : Slot} {lane : Lane} {sense : TrackTime} {c : Claim}
    (hc : c ∈ (enteredRecord s sec k lane sense).claims) (hcar : c.car = .slot k) :
    ∃ o, c = enteredClaim sec.map (s.car k) k (levelOf s k) lane o sense := by
  have hadd {sec' : Section} {d : Claim} (hm : c ∈ (addedTo s.now sec' d).claims) : c = d ∨ c ∈ sec'.claims := by
    rw [← addClaim_eq] at hm
    exact mem_addClaim hm
  unfold enteredRecord at hc
  cases hclaim : sec.claimOf k with
  | none =>
    rw [hclaim] at hc
    exact (hadd hc).elim (fun h => ⟨_, h⟩) fun h => absurd hcar (claimOf_none hclaim c h)
  | some d =>
    rw [hclaim] at hc
    dsimp only at hc
    by_cases hp : d.state = .predicted
    · rw [if_pos hp] at hc
      dsimp only at hc
      rw [← insertClaim_eq] at hc
      exact (mem_insertClaim.mp hc).elim (fun h => ⟨_, h⟩)
        fun h => absurd hcar (of_decide_eq_true (List.mem_filter.mp h).2)
    · rw [if_neg hp] at hc
      exact (hadd hc).elim (fun h => ⟨_, h⟩) fun h => absurd hcar (of_decide_eq_true (List.mem_filter.mp h).2)

theorem enteredRecord_map (s : State) (sec : Section) (k : Slot) (lane : Lane) (sense : TrackTime) :
    (enteredRecord s sec k lane sense).map = sec.map := by
  have hadd (sec' : Section) (d : Claim) : (addedTo s.now sec' d).map = sec'.map := by
    unfold addedTo
    split_ifs <;> rfl
  unfold enteredRecord
  cases sec.claimOf k with
  | none => exact hadd _ _
  | some d =>
    dsimp only
    split_ifs
    · rfl
    · exact hadd _ _

theorem enteredSection_positions (s : State) (a : Addr) (sec : Section) (k : Slot) (lane : Lane) (sense : TrackTime) :
    (enteredSection s a sec k lane sense).positions = s.positions := by
  unfold enteredSection
  cases sec.claimOf k with
  | none => rfl
  | some c =>
    dsimp only
    by_cases hp : c.state = .predicted
    · rw [if_pos hp]
    · rw [if_neg hp, recordedAll_eq]
      rfl

/-! ### A request refused (R143, R145) -/

/-- The claim of a crossing over another kind's path, before its state is set (R132, R142). -/
def crossingOf (t : State) (sec : Section) (c : Claim) : Claim :=
  Claim.withClear { c with kind := c.kind.entryLane.cross } sec.map
    ((t.motion sec c.car).clearTime sec.map c.sense sec.map.approach c.kind.entryLane.cross)

theorem refusedClaim_crossingOf (t u : State) (sec : Section) (m : SectionMap) (k : Slot) (c : Claim) :
    refusedClaim u m k (crossingOf t sec c) = refusedClaim u m k c := by
  have hlane : (crossingOf t sec c).kind.entryLane = c.kind.entryLane := cross_entryLane _
  unfold refusedClaim
  rw [hlane]
  rfl

/-- A claim that is not GRANTED, put in the place of one that is not, changes no late conflict. -/
theorem lateConflicts_putClaim {sec : Section} {k : Slot} {r : Claim} (hn : NoneGranted sec k) (hr : r.state ≠ .granted)
    (c : Claim) : lateConflicts (sec.putClaim k r) c = lateConflicts sec c := by
  unfold lateConflicts Section.putClaim
  dsimp only
  refine filter_map_kept _ _ _ fun d hd => ?_
  by_cases hk : d.car = .slot k
  · rw [if_pos hk, decide_eq_false (hn d hd hk), decide_eq_false hr]
    exact .inr ⟨rfl, rfl⟩
  · exact .inl (if_neg hk)

/-- The crossing claim put in the place of the entered one. -/
def crossed (t : State) (a : Addr) (k : Slot) (sec : Section) (c : Claim) : State :=
  t.setSection a (some (sec.putClaim k (crossingOf t sec c)))

theorem crossed_sectionAt (t : State) (a : Addr) (k : Slot) (sec : Section) (c : Claim) :
    (crossed t a k sec c).sectionAt a = some (sec.putClaim k (crossingOf t sec c)) := Vector.getElem_set_self _

theorem denialsRecords_one {t : State} {a : Addr} {sec : Section} (d : Denial) {c : Claim} (hs : t.sectionAt a = some sec)
    (hc : sec.claimOf d.slot = some c) :
    denialsRecords t a [d]
      = denyRecord t a d.slot d.reason d.other :: lateRecords t a sec (refusedClaim t sec.map d.slot c) := by
  unfold denialsRecords denialRecords
  rw [hs]
  dsimp only
  rw [List.flatMap_singleton, hc]

section Request
variable {t : State} {a : Addr} {k : Slot} {sec : Section} {c : Claim}
variable (hs : t.sectionAt a = some sec) (hu : SingleClaims sec.claims) (hc : sec.claimOf k = some c)
variable (hg : c.state ≠ .granted)
include hu hc

theorem claimOf_crossed : (sec.putClaim k (crossingOf t sec c)).claimOf k = some (crossingOf t sec c) :=
  claimOf_putClaim (new := crossingOf t sec c) hc (claimOf_some hc).2 hu

theorem single_crossed : SingleClaims (sec.putClaim k (crossingOf t sec c)).claims :=
  putClaim_single (new := crossingOf t sec c) hu (claimOf_some hc).2

include hg

theorem noneGranted_of_claim : NoneGranted sec k := by
  intro d hd hdk
  obtain ⟨hm, hk⟩ := claimOf_some hc
  rw [hu.unique hd hm hdk hk]
  exact hg

include hs

theorem denialsRecords_crossed (reason : DenyReason) :
    denialsRecords (crossed t a k sec c) a [⟨k, reason, none⟩] = denialsRecords t a [⟨k, reason, none⟩] := by
  have hlate := lateConflicts_putClaim (noneGranted_of_claim hu hc hg) (r := crossingOf t sec c) hg
  rw [denialsRecords_one ⟨k, reason, none⟩ (crossed_sectionAt t a k sec c) (claimOf_crossed hu hc),
    denialsRecords_one ⟨k, reason, none⟩ hs hc, refusedClaim_crossingOf]
  unfold lateRecords
  rw [hlate]
  rfl

theorem denials_crossed (reason : DenyReason) :
    denials (crossed t a k sec c) a [⟨k, reason, none⟩] = denials t a [⟨k, reason, none⟩] := by
  have hafter : afterDenials (crossed t a k sec c) (sec.putClaim k (crossingOf t sec c)) [⟨k, reason, none⟩]
      = afterDenials t sec [⟨k, reason, none⟩] := by
    rw [afterDenials_one _ _ ⟨k, reason, none⟩ _ (single_crossed hu hc) (claimOf_crossed hu hc),
      afterDenials_one t sec ⟨k, reason, none⟩ c hu hc, refusedClaim_crossingOf,
      putClaim_twice sec k (crossingOf t sec c) _ (claimOf_some hc).2]
    rfl
  have hsections (o : Option Section) : (crossed t a k sec c).sections.set a o = t.sections.set a o := Vector.set_set ..
  rw [denials_some _ a _ _ (crossed_sectionAt t a k sec c), denials_some t a _ sec hs, denialsRecords_crossed hs hu hc hg, hafter,
    hsections]
  rfl

theorem makeRequest_refused {reason : DenyReason} (hr : t.refusal sec (crossingOf t sec c) = some reason) :
    t.makeRequest a k = handed (denials t a [⟨k, reason, none⟩])
      (t.cautionRequests ++ lateSources (denialsRecords t a [⟨k, reason, none⟩])) := by
  have hrefusal : (crossed t a k sec c).refusal sec (crossingOf t sec c) = some reason := hr
  have hmodel : t.makeRequest a k = (crossed t a k sec c).deny a k reason none := by
    unfold State.makeRequest
    simp only [hs, hc]
    unfold crossed crossingOf at hrefusal ⊢
    rw [hrefusal]
  rw [hmodel, deny_eq _ a ⟨k, reason, none⟩ _ _ (crossed_sectionAt t a k sec c) (claimOf_crossed hu hc) hg (single_crossed hu hc),
    denials_crossed hs hu hc hg, denialsRecords_crossed hs hu hc hg]
  rfl

end Request

/-- The request PENDING in the place of the entered claim (R142, R134). -/
def askedState (t : State) (a : Addr) (k : Slot) (sec : Section) (c : Claim) : State :=
  t.setSection a (some (sec.putClaim k { crossingOf t sec c with
    state := .pending, decideTime := some (c.enter - BitVec.ofNat 32 sec.map.lead) }))

theorem makeRequest_pending {t : State} {a : Addr} {k : Slot} {sec : Section} {c : Claim} (hs : t.sectionAt a = some sec)
    (hc : sec.claimOf k = some c) (hr : t.refusal sec (crossingOf t sec c) = none) :
    t.makeRequest a k = if reached t.now (c.enter - BitVec.ofNat 32 sec.map.lead) then (askedState t a k sec c).decideRequest a k
      else askedState t a k sec c := by
  have hrefusal : (crossed t a k sec c).refusal sec (crossingOf t sec c) = none := hr
  have hset (o : Option Section) : (crossed t a k sec c).setSection a o = t.setSection a o := by
    have hsections : (crossed t a k sec c).sections.set a o = t.sections.set a o := Vector.set_set ..
    unfold State.setSection
    rw [hsections]
    rfl
  have hasked : askedState t a k sec c = (crossed t a k sec c).setSection a (some (sec.putClaim k { crossingOf t sec c with
      state := .pending, decideTime := some (c.enter - BitVec.ofNat 32 sec.map.lead) })) := (hset _).symm
  rw [hasked]
  unfold State.makeRequest
  simp only [hs, hc]
  unfold crossed crossingOf at hrefusal ⊢
  rw [hrefusal]
  exact rfl

end Sys2Proof.Proofs.Requests
end

section
/-! PROOFS. Sightings of car slots as frames on the bus: what they look ahead to, and what an armed car's request meets (R119
to R124, R142, R143, R145, R153). -/

namespace Sys2Proof.Proofs.Crossings

open Sys2Proof Sys2Proof.Machine Host Kept Arguments Arithmetic Nodes Reports Lapses Decisions Sightings Entries Sensing Lookahead
  Requests

/-! ### The refusals of a request (R143) -/

section Refusal
variable {t : State} {sec : Section} {c : Claim}

theorem refusal_state (h : ¬ t.crossingAllowed = true) : t.refusal sec c = some .state := by
  rw [Bool.not_eq_true] at h
  unfold State.refusal
  rw [h]
  rfl

variable (ha : t.crossingAllowed = true)
include ha

theorem refusal_allowed : t.refusal sec c = if sec.admin ≠ .opened then some .closed else if t.blind sec then some .blind
    else if c.clear = .unbounded then some .tooSlow else if reached t.now c.enter then some .tooLate else none := by
  unfold State.refusal
  rw [ha]
  rfl

theorem refusal_closed (h : sec.admin ≠ .opened) : t.refusal sec c = some .closed := (refusal_allowed ha).trans (if_pos h)

variable (ho : sec.admin = .opened)
include ho

theorem refusal_blind (h : Blinded t sec) : t.refusal sec c = some .blind :=
  (refusal_allowed ha).trans ((if_neg (not_not.mpr ho)).trans (if_pos ((blind_iff t sec).mpr h)))

theorem refusal_sighted (h : ¬ Blinded t sec) : t.refusal sec c
    = if c.clear = .unbounded then some .tooSlow else if reached t.now c.enter then some .tooLate else none :=
  (refusal_allowed ha).trans ((if_neg (not_not.mpr ho)).trans (if_neg (mt (blind_iff t sec).mp h)))

variable (hb : ¬ Blinded t sec)
include hb

theorem refusal_slow (h : c.clear = .unbounded) : t.refusal sec c = some .tooSlow :=
  (refusal_sighted ha ho hb).trans (if_pos h)

variable (hfast : c.clear ≠ .unbounded)
include hfast

theorem refusal_late (h : Reached t.now c.enter) : t.refusal sec c = some .tooLate :=
  (refusal_sighted ha ho hb).trans ((if_neg hfast).trans (if_pos ((reached_iff _ _).mpr h)))

theorem refusal_none (h : ¬ Reached t.now c.enter) : t.refusal sec c = none :=
  (refusal_sighted ha ho hb).trans ((if_neg hfast).trans (if_neg (mt (reached_iff _ _).mp h)))

end Refusal

/-! ### The request's claim (R132, R142) -/

theorem entryLane_straight (lane : Lane) : (if lane = .a then ClaimKind.straightA else .straightB).entryLane = lane := by
  cases lane <;> rfl

theorem crossingOf_entered (t : State) (sec : Section) (m : SectionMap) (r : Car) (k : Slot) (level : Nat) (lane : Lane)
    (o : ClaimOrigin) (sense : TrackTime) :
    crossingOf t sec (enteredClaim m r k level lane o sense) =
      { enteredClaim m r k level lane o sense with
        kind := if lane = .a then .crossAB else .crossBA
        clear := (windowOf (t.car k) (levelOf t k) sense sec.map.approach sec.map.crossing).2
        lapse := lapseOf sec.map (windowOf (t.car k) (levelOf t k) sense sec.map.approach sec.map.crossing).2 } := by
  have hlane : (enteredClaim m r k level lane o sense).kind.entryLane = lane := entryLane_straight lane
  have hclear : (t.motion sec (.slot k)).clearTime sec.map sense sec.map.approach lane.cross
      = (windowOf (t.car k) (levelOf t k) sense sec.map.approach sec.map.crossing).2 := by
    rw [motion_clearTime]
    cases lane <;> rfl
  have hkind : lane.cross = if lane = .a then .crossAB else .crossBA := by cases lane <;> rfl
  unfold crossingOf
  rw [hlane, show (t.motion sec (enteredClaim m r k level lane o sense).car).clearTime sec.map
    (enteredClaim m r k level lane o sense).sense sec.map.approach lane.cross = _ from hclear, hkind]
  rfl

theorem readArm_armed {t : State} {a : Addr} {k : Slot} {sec : Section} {c : Claim} (hs : t.sectionAt a = some sec)
    (hc : sec.claimOf k = some c) (harm : (t.car k).armed = true) : t.readArm a k = t.makeRequest a k := by
  unfold State.readArm
  rw [hs]
  dsimp only
  rw [hc]
  exact if_pos harm

theorem sighted_level (u : State) (x : Sighting) (k : Slot) (hr : x.role = (u.node x.node).role) :
    ((sighted u x.node x.sensor x.lane x.sense k).position k).level = some (u.car k).output := by
  have h : (sighted u x.node x.sensor x.lane x.sense k).position k = {
      lastNode := some x.node, lastLane := some x.lane, lastSensor := some x.sensor, lastSeen := some x.sense
      level := some (u.car k).output, expectedLane := none } := by
    rw [sighted_eq u x k hr]
    exact Vector.getElem_set_self _
  rw [h]

theorem lookedAhead_requests (s : State) (a : Addr) (lane : Lane) (sense : TrackTime) (k : Slot) :
    (lookedAhead s a lane sense k).cautionRequests = s.cautionRequests := by
  unfold lookedAhead
  exact recordedAll_requests s _

/-! ### An armed car's entry -/

section Armed
variable {v : State} {a : Addr} {k : Slot} {sec : Section} {c : Claim} (q : List CautionSource)
variable (hs : v.sectionAt a = some sec) (hc : sec.claimOf k = some c) (harm : (v.car k).armed = true)
include hs hc harm

theorem readArm_refused {reason : DenyReason} (hu : SingleClaims sec.claims) (hg : c.state ≠ .granted)
    (hr : v.refusal sec (crossingOf v sec c) = some reason) :
    (handed v q).readArm a k = handed (denials v a [⟨k, reason, none⟩]) (q ++ lateSources (denialsRecords v a [⟨k, reason, none⟩])) := by
  have hs' : (handed v q).sectionAt a = some sec := hs
  have hr' : (handed v q).refusal sec (crossingOf (handed v q) sec c) = some reason := hr
  rw [readArm_armed hs' hc harm, makeRequest_refused hs' hu hc hg hr', denials_handed, denialsRecords_handed]
  rfl

theorem readArm_waiting (hr : v.refusal sec (crossingOf v sec c) = none)
    (hdue : ¬ Reached v.now (c.enter - BitVec.ofNat 32 sec.map.lead)) :
    (handed v q).readArm a k = handed (askedState v a k sec c) q := by
  have hs' : (handed v q).sectionAt a = some sec := hs
  have hr' : (handed v q).refusal sec (crossingOf (handed v q) sec c) = none := hr
  rw [readArm_armed hs' hc harm, makeRequest_pending hs' hc hr']
  exact if_neg (mt (reached_iff _ _).mp hdue)

theorem readArm_due (hr : v.refusal sec (crossingOf v sec c) = none)
    (hdue : Reached v.now (c.enter - BitVec.ofNat 32 sec.map.lead)) :
    (handed v q).readArm a k = (handed (askedState v a k sec c) q).decideRequest a k := by
  have hs' : (handed v q).sectionAt a = some sec := hs
  have hr' : (handed v q).refusal sec (crossingOf (handed v q) sec c) = none := hr
  rw [readArm_armed hs' hc harm, makeRequest_pending hs' hc hr']
  exact if_pos ((reached_iff _ _).mpr hdue)

omit hs harm in
/-- A request whose decide time is reached as it is made is decided as the decide time's timer decides it. -/
theorem exec_decideTimeExpiry_asked (hheld : Running v) (hu : SingleClaims sec.claims)
    (hdue : Reached v.now (c.enter - BitVec.ofNat 32 sec.map.lead)) :
    exec (.decideTimeExpiry a k) (handed (askedState v a k sec c) q)
      = .next ((handed (askedState v a k sec c) q).decideRequest a k).takeCautionRequests := by
  have hasked : (handed (askedState v a k sec c) q).sectionAt a = some _ := Vector.getElem_set_self _
  have hpending := (decideDue_of_claim hasked (claimOf_putClaim hc (claimOf_some hc).2 hu)).mpr ⟨rfl, _, rfl, hdue⟩
  have hrun : (handed (askedState v a k sec c) q).held = false := hheld
  rw [exec_decideTimeExpiry, take_of_running hrun, if_pos hpending]

end Armed

/-! ### A car's sighting at an entry -/

theorem isExit_of_entry {x : Sighting} (h : x.sensor = .entry) : x.isExit = false := by
  unfold Sighting.isExit
  rw [h]
  exact Bool.and_false _

theorem isExit_of_exit {x : Sighting} (hr : x.role = .sect) (hs : x.sensor = .exit) : x.isExit = true := by
  unfold Sighting.isExit
  rw [hr, hs]
  rfl

theorem isEntry_elsewhere {x : Sighting} (h : x.role = .gate ∨ x.sensor = .exit) : x.isEntry = false := by
  unfold Sighting.isEntry
  obtain h | h := h
  · rw [h]
    rfl
  · rw [h]
    exact Bool.and_false _

theorem now_of_arbitrated {s t : State} (h : Arbitrated s t) : t.now = s.now := by rw [h.frame]

theorem held_of_arbitrated {s t : State} (h : Arbitrated s t) : t.held = s.held := by rw [h.frame]

/-- The state in which the arm is read at an entry. -/
def entered (u : State) (x : Sighting) (sec : Section) (k : Slot) : State :=
  enteredSection (sighted u x.node x.sensor x.lane x.sense k) x.node sec k x.lane x.sense

/-- Its record of the section. -/
def enteredAt (u : State) (x : Sighting) (sec : Section) (k : Slot) : Section :=
  enteredRecord (sighted u x.node x.sensor x.lane x.sense k) sec k x.lane x.sense

section Entry
variable {u : State} {x : Sighting} {sec : Section} {k : Slot}

theorem entered_sectionAt : (entered u x sec k).sectionAt x.node = some (enteredAt u x sec k) := enteredSection_sectionAt ..

variable (hr : x.role = (u.node x.node).role)
include hr

theorem entered_requests : (entered u x sec k).cautionRequests = u.cautionRequests :=
  (enteredSection_requests ..).trans (sighted_requests u x k hr)

theorem levelOf_entered : levelOf (entered u x sec k) k = (u.car k).output := by
  have hlevel := sighted_level u x k hr
  unfold levelOf entered State.position at *
  rw [enteredSection_positions, hlevel]

variable (hentry : x.sensor = .entry) (hs : u.sectionAt x.node = some sec) (hk : ClaimListsKept u) (h0 : u.cautionRequests = [])
include hentry hs hk h0

/-- A sighting of a car slot changes what the arbiter changes, up to the reading of the arm. -/
theorem entered_arbitrated : Arbitrated u (handed (entered u x sec k) (enteringSources sec k)) := by
  have hx := isExit_of_entry hentry
  have hown := (sighted_own k hr hx).trans hs
  have hrequests := (sighted_requests u x k hr).trans h0
  have h := (tracked_arbitrated u x k).trans (enterClaim_arbitrated (tracked u x k) x k)
  rw [tracked_sighted k hr hx, enterClaim_eq k hown (hk.single hs), hrequests, List.nil_append] at h
  exact h

/-- The claim that an armed car's request finds, over the other path: its window is that of the car's present output. -/
theorem crossingOf_enteredAt {c : Claim} (hc : c ∈ (enteredAt u x sec k).claims) (hcar : c.car = .slot k) :
    crossingOf (entered u x sec k) (enteredAt u x sec k) c =
      { c with
        kind := if x.lane = .a then .crossAB else .crossBA
        clear := (windowOf ((entered u x sec k).car k) ((entered u x sec k).car k).output x.sense
          (enteredAt u x sec k).map.approach (enteredAt u x sec k).map.crossing).2
        lapse := lapseOf (enteredAt u x sec k).map (windowOf ((entered u x sec k).car k) ((entered u x sec k).car k).output
          x.sense (enteredAt u x sec k).map.approach (enteredAt u x sec k).map.crossing).2 } := by
  have houtput : ((entered u x sec k).car k).output = (u.car k).output :=
    (congrArg Car.output ((entered_arbitrated (k := k) hr hentry hs hk h0).cars k)).trans rfl
  obtain ⟨o, hco⟩ := enteredRecord_claim hc hcar
  rw [hco, crossingOf_entered, levelOf_entered hr, houtput]

end Entry

theorem enteredAt_not_granted {u : State} {x : Sighting} {sec : Section} {k : Slot} {c : Claim}
    (hc : c ∈ (enteredAt u x sec k).claims) (hcar : c.car = .slot k) : c.state ≠ .granted := by
  obtain ⟨o, hco⟩ := enteredRecord_claim hc hcar
  rw [hco]
  show ClaimState.entered ≠ .granted
  decide

/-- Settles O46: a sighting that looks ahead, and the arm read at an entry: refused, PENDING, or decided at once. -/
theorem requestsExitsAndLookahead : Obligations.RequestsExitsAndLookahead := by
  intro s a bytes sensor lane age k hr h0 ht hk hreg hst hrole hm sense p hnew run moved
  let u := reported s a
  let x := sightingOf s a sensor lane (some k) age
  have hplain {w : State} (hw : u.sighting x = w) (hw0 : w.cautionRequests = []) :
      run = .next w := exec_sense_plain hr ht hst hrole hm hw hw0
  have htaken {w : State} {l : List CautionSource} (hw : u.sighting x = handed w l) (hw0 : w.cautionRequests = []) :
      run = .next (cautionAfter w l) := exec_sense_taken hr ht hk hst hrole hm hw hw0
  have hrun : run = .next (u.sighting x).takeCautionRequests := exec_sense hr ht hst hrole hm
  have hxrole : x.role = (u.node x.node).role := (reported_role s a).symm
  have hsight : u.sighting x = u.carSighting x k := by
    refine sighting_of_car rfl ?_ ?_
    · rw [stale_iff]
      rintro ⟨t, hseen, hstale⟩
      exact (hnew t hseen).1 hstale
    · rw [repeats_iff]
      rintro ⟨t, hseen, hrep⟩
      exact (hnew t hseen).2 hrep
  have hmoved0 : moved.cautionRequests = [] := (sighted_requests u x k hxrole).trans h0
  rw [hsight] at hrun
  simp only [hsight] at hplain htaken
  clear_value run
  refine ⟨fun hahead => ?ahead, fun sec hsect hentry hs => ?entry⟩
  case ahead =>
    have hentry : x.isEntry = false := isEntry_elsewhere hahead
    have hown : x.isExit = true ∨ u.sectionAt x.node = none := by
      obtain h | h := hrole
      · exact .inl (isExit_of_exit h (hahead.resolve_left (by rw [h]; decide)))
      · refine .inr ?_
        have hnot := mt (hreg.records a).mp (by rw [h]; decide)
        rwa [Bool.not_eq_true, Option.isSome_eq_false_iff, Option.isNone_iff_eq_none] at hnot
    have hnone := sighted_noneGranted (s := u) (x := x) (k := k) hk hxrole hown
    have hahead := lookahead_eq (x := x) hnone
    rw [show (sighted u x.node x.sensor x.lane x.sense k).cautionRequests = [] from hmoved0, List.nil_append] at hahead
    exact htaken ((carSighting_ahead k hentry hxrole).trans hahead) ((lookedAhead_requests ..).trans hmoved0)
  case entry =>
    intro v harm
    have hentered : v = entered u x sec k := rfl
    clear_value v
    have hreads : u.carSighting x k = (handed v (enteringSources sec k)).readArm a k := by
      rw [hentered]
      exact carSighting_entered k hxrole hsect hentry hs (hk.single hs) h0
    have hv : v.sectionAt a = some (enteredAt u x sec k) := by
      rw [hentered]
      exact entered_sectionAt
    have hv0 : v.cautionRequests = [] := by
      rw [hentered, entered_requests hxrole]
      exact h0
    have hgood : ClaimsGood true (enteredAt u x sec k).claims := enteredRecord_good (good_of_lists hk hs) k lane sense
    have harb : Arbitrated u (handed v (enteringSources sec k)) := by
      rw [hentered]
      exact entered_arbitrated hxrole hentry hs hk h0
    have hcross (c : Claim) (hc : c ∈ (enteredAt u x sec k).claims) (hcar : c.car = .slot k) :=
      crossingOf_enteredAt hxrole hentry hs hk h0 hc hcar
    have hgranted (c : Claim) (hc : c ∈ (enteredAt u x sec k).claims) (hcar : c.car = .slot k) := enteredAt_not_granted hc hcar
    rw [← hentered] at hcross
    refine ⟨fun hno => ?unstored, fun sec' c hs' hc hcar => ?stored⟩
    case unstored =>
      have hno := hno _ hv
      have hnone : enteringSources sec k = [] := enteringSources_of_unstored (good_of_lists hk hs).length hno
      refine hplain ?_ ?_
      · rw [hreads, hnone, readArm_unstored _ hv (claimOf_none_of_absent hno), if_pos harm, handed_nil hv0, recordDenial_eq]
      · rw [retried_requests, recorded_requests, hv0]
    case stored =>
      intro w due request asked allowed sources refused
      rw [Option.some.inj (hv.symm.trans hs')] at hgood hgranted hcross
      replace hcross := hcross c hc hcar
      have hg := hgranted c hc hcar
      have hsingle := hgood.single
      have hclaim := claimOf_eq hsingle hc hcar
      have hnow : v.now = s.now := show (handed v sources).now = u.now from now_of_arbitrated harb
      have hheld : Running v := (show (handed v sources).held = u.held from held_of_arbitrated harb).trans hr
      have hallowed : v.crossingAllowed = true ↔ allowed := by
        rw [crossingAllowed_iff, show v.track = s.track from harb.track, show v.options = s.options from harb.options]
      have hasked : askedState v a k sec' c = asked := by
        unfold askedState
        rw [hcross]
        rfl
      have hdenied {reason : DenyReason} (h : v.refusal sec' (crossingOf v sec' c) = some reason) : refused reason :=
        htaken (hreads.trans (readArm_refused sources hs' hclaim harm hsingle hg h)) ((denials_cautionRequests v a _).trans hv0)
      have hclear : (crossingOf v sec' c).clear = w.2 := by
        rw [hcross]
        rfl
      rw [← hnow]
      refine ⟨fun hno => hdenied (refusal_state fun h => hno (hallowed.mp h)),
        fun ha ho => hdenied (refusal_closed (hallowed.mpr ha) ho),
        fun ha ho hb => hdenied (refusal_blind (hallowed.mpr ha) ho hb),
        fun ha ho hb hslow => hdenied (refusal_slow (hallowed.mpr ha) ho hb (hclear.trans hslow)),
        fun ha ho hb hfast hlate => hdenied (refusal_late (hallowed.mpr ha) ho hb (hclear.trans_ne hfast) hlate),
        fun ha ho hb hfast hearly => ?asked⟩
      case asked =>
        have hnone := refusal_none (hallowed.mpr ha) ho hb (hclear.trans_ne hfast) hearly
        refine ⟨fun hdue => ?_, fun hdue => ?_⟩
        · rw [← hasked]
          exact htaken (hreads.trans (readArm_waiting sources hs' hclaim harm hnone hdue)) hv0
        · rw [hrun, hreads, readArm_due sources hs' hclaim harm hnone hdue, ← hasked]
          exact (exec_decideTimeExpiry_asked sources hclaim hheld hsingle hdue).symm

end Sys2Proof.Proofs.Crossings
end
